-- ==== Sys2Proof/Word.lean ====
section
/-! DEFINITION. The word types of the block (00_scope.md R9, R15) and the 4-byte bus id. -/

namespace Sys2Proof

/-- A byte: 8 bits, bit 0 least significant (R15). Device ids, header flags and wire symbols are bytes. -/
abbrev Byte := BitVec 8

/-- A 16-bit value: the answer of `Phy.ReceiveResponse`, the value of a response record, the data of an error event. -/
abbrev Half := BitVec 16

/-- A 32-bit value: the `timing` of a slot and the duration of `RECEIVE_FOR`, microseconds (R9). -/
abbrev Word := BitVec 32

/-- A 64-bit clock value, microseconds (R9, R70). -/
abbrev Time := BitVec 64

/-- A bus id `b0.b1.b2.b3`: a 4-byte opaque identifier in index order (R15, 10_state.md R24). -/
structure BusId where
  b0 : Byte
  b1 : Byte
  b2 : Byte
  b3 : Byte
deriving DecidableEq, Repr

/-- The four bytes of a bus id as they stand on the wire, `BUS_ID[0]` first (20_memory.md R72). -/
def BusId.bytes (b : BusId) : List Byte := [b.b0, b.b1, b.b2, b.b3]

/-- The sentinel `0.0.0.0`, "localhost" (30_encoding.md R102). -/
def BusId.zero : BusId := ⟨0, 0, 0, 0⟩

end Sys2Proof
end

