-- ==== Sys2Proof/Config.lean ====
section
/-! DEFINITION. The fixed constants (00_scope.md R8, 30_encoding.md R100), the parameters of the model (R6, R7), and the
free values that stand for answers of the strategy and of the clock port which nothing has supplied (R14). -/

namespace Sys2Proof.Config

/-- `ACK = 6` on the wire (R99, R100). -/
def ackSymbol : Byte := 6
/-- `NAK = 21` on the wire (R99, R100). -/
def nakSymbol : Byte := 21
/-- `ACQUIRE_ID = 63`, the one-byte payload of an acquisition probe (R96, R100). -/
def acquireIdByte : Byte := 63
/-- `BUSY = 666` (R100). -/
def busyCode : Half := 666
/-- `FAIL = 0x100`: outcome, slot state, strategy sentinel, enqueue failure, data of `ID_ACQUISITION_FAIL` (R100). -/
def failCode : Half := 0x100
/-- `TO_BE_SENT = 74` (R100). -/
def toBeSentCode : Half := 74
/-- `BROADCAST = 0` (R101). -/
def broadcast : Byte := 0
/-- `NOT_ASSIGNED = 255` (R101). -/
def notAssigned : Byte := 255
/-- `MAX_ATTEMPTS = 125` (R100). -/
def maxAttempts : Nat := 125
/-- `INITIAL_MAX_DELAY = 1000` ms (R100). -/
def initialMaxDelay : Nat := 1000
/-- `COLLISION_MAX_DELAY = 16` µs (R100). -/
def collisionMaxDelay : Nat := 16
/-- `MAX_ID_SCAN_TIME = 5 000 000` µs (R100). -/
def maxIdScanTime : Nat := 5000000
/-- `SIMPLEX = 150` (R100). -/
def simplexCode : Byte := 150
/-- `HALF_DUPLEX = 151` (R100). -/
def halfDuplexCode : Byte := 151

/-- The parameters: `MAX_PACKETS` and `PACKET_MAX_LENGTH` are compile-time tunable (R6), `INIT_DEVICE_ID` and
`INIT_BUS_ID` are creation arguments (R7). -/
structure Params where
  maxPackets : Nat := 10
  packetMaxLength : Nat := 50
  initDeviceId : Byte := 255
  initBusId : BusId := BusId.zero
deriving DecidableEq, Repr

/-- The ranges the spec gives the parameters: `1 ≤ MAX_PACKETS ≤ 255`, `6 ≤ PACKET_MAX_LENGTH ≤ 255` (R6). -/
abbrev Params.legal (p : Params) : Prop :=
  1 ≤ p.maxPackets ∧ p.maxPackets ≤ 255 ∧ 6 ≤ p.packetMaxLength ∧ p.packetMaxLength ≤ 255

/-- FREE VALUE (log 3): what `Phy.CanStart` answers where no answer has been supplied (20_memory.md R67, I9). -/
opaque freeSense : Nat → Bool

/-- FREE VALUE (log 3): what `Phy.ReceiveByte` answers where no answer has been supplied: a byte or `FAIL` (R67, I9, I11). -/
opaque freeByte : Nat → Option Byte

/-- FREE VALUE (log 3): what `Phy.ReceiveResponse` answers where no answer has been supplied (R67, I9). -/
opaque freeResponse : Nat → Half

/-- FREE VALUE (log 3, log 4): how many microseconds pass before a `Clk.Now` for which none were supplied (R71, I14). -/
opaque freeElapsed : Nat → Nat

/-- FREE VALUE (log 3, log 5): the draw behind a `Clk.Random` for which none was supplied (R71, I15). -/
opaque freeDraw : Nat → Nat

end Sys2Proof.Config
end

