-- ==== Sys2Proof/Syntax.lean ====
section
/-! DEFINITION. The syntax of everything that crosses the block's interfaces: one constructor of `Instr` for each of the 37
rows of spec/opcode_table.json, with the operand fields the encodings of 30_encoding.md give it. -/

namespace Sys2Proof

/-- One outcome of the transmit or of the receive engine (00_scope.md R17, 10_state.md R49). -/
inductive Outcome where
  | ack
  | nak
  | busy
  | fail
deriving DecidableEq, Repr

/-- Which end of the wire a frame or a response symbol is seen from: the block sends it, or the strategy delivers it. -/
inductive Direction where
  | sent
  | received
deriving DecidableEq, Repr

/-- `LastPacketInfo`: the metadata of an accepted frame (10_state.md R45), also the `info` of a receive event (R119). -/
structure PacketInfo where
  receiverId : Byte
  header : Byte
  receiverBusId : BusId
  senderBusId : BusId
  senderId : Byte
deriving DecidableEq, Repr

/-- The rows of spec/opcode_table.json. -/
inductive Instr where
  -- host commands (30_encoding.md R110)
  | beginOp
  | update
  | receive
  | receiveFor (duration : Word)
  | enqueue (dst : Byte) (rbus : BusId) (timing : Word) (hsel : Byte) (header : Byte) (payload : List Byte)
  | reply (payload : List Byte)
  | remove (slot : Byte)
  | acquireId
  | getId
  | setId (id : Byte)
  | setBusId (bus : BusId)
  | setShared (v : Byte)
  | setRouter (v : Byte)
  | setSenderInfo (v : Byte)
  | setAck (v : Byte)
  | setAutoDelete (v : Byte)
  | setMode (m : Byte)
  | setPins (inPin : Byte) (outPin : Byte)
  -- pseudo-commands (30_encoding.md R126)
  | send (dst : Byte) (bus : BusId) (payload : List Byte)
  | sendH (dst : Byte) (bus : BusId) (payload : List Byte) (header : Byte)
  | sendRepeatedly (dst : Byte) (bus : BusId) (payload : List Byte) (timing : Word)
  | sendRepeatedlyH (dst : Byte) (bus : BusId) (payload : List Byte) (timing : Word) (header : Byte)
  | tick
  -- frames on the wire (30_encoding.md R90, R95); flags is header[7:2], bit 0 of it being ACK_REQUEST
  | frameLocal (dir : Direction) (receiverId : Byte) (flags : BitVec 6) (payload : List Byte) (crc : Byte)
  | frameShared (dir : Direction) (receiverId : Byte) (flags : BitVec 6) (rbus : BusId) (payload : List Byte) (crc : Byte)
  | frameLocalSender (dir : Direction) (receiverId : Byte) (flags : BitVec 6) (senderId : Byte) (payload : List Byte) (crc : Byte)
  | frameSharedSender (dir : Direction) (receiverId : Byte) (flags : BitVec 6) (rbus : BusId) (sbus : BusId) (senderId : Byte) (payload : List Byte) (crc : Byte)
  -- response symbols on the wire (30_encoding.md R99)
  | ack (dir : Direction)
  | nak (dir : Direction)
  -- response records (30_encoding.md R118)
  | respVoid
  | respSlot (slot : Byte)
  | respEnqFail
  | respOutcome (o : Outcome)
  | respNoop
  | respId (id : Byte)
  -- event records (30_encoding.md R119, R120)
  | rxevt (off : Byte) (len : Byte) (info : PacketInfo)
  | errevt (code : Byte) (data : Half)
deriving DecidableEq, Repr

/-- The stream a byte sequence stands in: the spec encodes commands, frames, response symbols, response records and event
records each in a space of its own, with the same first bytes (30_encoding.md; the `space` of each row of the table). -/
inductive Space where
  | command
  | frame (dir : Direction)
  | symbol (dir : Direction)
  | response
  | event
deriving DecidableEq, Repr

/-- A byte sequence together with the stream it stands in. -/
structure Packet where
  space : Space
  bytes : List Byte
deriving DecidableEq, Repr

/-- Why a packet has no instruction: the names of the `invalid` verdict of 30_encoding.md R121. -/
inductive DecodeError where
  /-- No byte at all. -/
  | empty
  /-- A reserved first byte: a reserved opcode (R121), or no symbol, response kind or event tag of the table. -/
  | reservedOpcode (b : Byte)
  /-- The length is not the length the opcode (and `len`), or the frame's length byte and header, fix (R111, R121, R124). -/
  | badLength
  /-- A response record whose value is not one its kind carries (R118). -/
  | badValue
deriving DecidableEq, Repr

end Sys2Proof
end

