-- ==== Sys2Proof/Machine/Flags.lean ====
section
/-! DEFINITION. The header flags (30_encoding.md R93, R94) and the outcome symbols, which are the nearest thing the block has
to condition codes (10_state.md R49): their 16-bit codes and the classification of a response symbol (42_transmit.md R187). -/

namespace Sys2Proof.Machine

/-- Header bit 0, `MODE`: the frame carries bus-id fields (R93). -/
def modeBit (h : Byte) : Bool := h.getLsbD 0

/-- Header bit 1, `SENDER_INFO`: the frame carries the sender's address (R93). -/
def senderInfoBit (h : Byte) : Bool := h.getLsbD 1

/-- Header bit 2, `ACK_REQUEST`: the receiver must emit a synchronous response (R93). -/
def ackRequestBit (h : Byte) : Bool := h.getLsbD 2

/-- Header bits 7..3 are all zero, as they must be on transmit (R93, R94). -/
def reservedBitsClear (h : Byte) : Bool := decide (h >>> 3 = 0)

/-- A header put together from its three named bits, bits 7..3 zero (41_queue_scheduler.md R151). -/
def headerOfBits (mode senderInfo ackRequest : Bool) : Byte :=
  (if mode then 1 else 0) + (if senderInfo then 2 else 0) + (if ackRequest then 4 else 0)

/-- A header put together from the row of R95 (its two low bits) and the flags above them. -/
def headerOfRow (flags : BitVec 6) (row : BitVec 2) : Byte := flags ++ row

/-- The 16-bit code of an outcome: `ACK = 6`, `NAK = 21`, `BUSY = 666`, `FAIL = 0x100` (R100, R118). -/
def outcomeCode : Outcome → Half
  | .ack => 6
  | .nak => 21
  | .busy => Config.busyCode
  | .fail => Config.failCode

/-- The outcome a 16-bit code stands for, if any. -/
def outcomeOfCode (v : Half) : Option Outcome :=
  if v = 6 then some .ack
  else if v = 21 then some .nak
  else if v = Config.busyCode then some .busy
  else if v = Config.failCode then some .fail
  else none

/-- What the transmit engine makes of the answer to `ReceiveResponse`: the outcome, and whether the random delay comes
before it (R187, complete over all 65 536 values). -/
def classifyResponse (r : Half) : Outcome × Bool :=
  if r = 6 then (.ack, false)
  else if r = Config.failCode then (.fail, false)
  else if r = 21 then (.nak, true)
  else (.fail, true)

end Sys2Proof.Machine
end

