-- ==== Sys2Proof/Machine/Codec.lean ====
section
/-! DEFINITION. The packet codec of 40_codec.md: CRC-8, header overhead, frame prefix, framer and deframer. Pure functions:
they read no state and make no port transaction. -/

namespace Sys2Proof.Machine

/-- The `k` remaining rounds of `crc8_update` (40_codec.md R130): least significant bit of the byte first, shift right,
exclusive or with `0x8C`. UNVERIFIED against a device: the spec marks this reading as general knowledge (log 10). -/
def crc8Rounds : Nat → Byte → Byte → Byte
  | 0, crc, _ => crc
  | k + 1, crc, b =>
    crc8Rounds k (if (crc ^^^ b).getLsbD 0 then (crc >>> 1) ^^^ 0x8C else crc >>> 1) (b >>> 1)

/-- `crc8_update(crc, b)` (R130). -/
def crc8Update (crc b : Byte) : Byte := crc8Rounds 8 crc b

/-- `crc8(s)`: the fold of `crc8_update` over the bytes from the seed 0 (R131). -/
def crc8 (s : List Byte) : Byte := s.foldl crc8Update 0

/-- `overhead(h)`: the number of frame bytes before the payload: 3, 7, 4 or 12 (R133). -/
def overhead (h : Byte) : Nat :=
  3 + (if modeBit h then 4 else 0) + (if senderInfoBit h then (if modeBit h then 5 else 1) else 0)

/-- `prefix_len(h) = overhead(h) − 3`: 0, 4, 1 or 9 (R133). -/
def prefixLen (h : Byte) : Nat := overhead h - 3

/-- `prefix(h, rbus, sbus, sid)`: the optional bytes between the header and the payload (R134). -/
def framePrefix (h : Byte) (rbus sbus : BusId) (sid : Byte) : List Byte :=
  (if modeBit h then rbus.bytes else []) ++
    (if senderInfoBit h then (if modeBit h then sbus.bytes ++ [sid] else [sid]) else [])

/-- A frame without its CRC byte: receiver id, total length, header, content (R90). The length byte is the content's length
plus 4 in 8 bits (R136, R182). -/
def frameBody (dst h : Byte) (content : List Byte) : List Byte :=
  [dst, BitVec.ofNat 8 (content.length + 4), h] ++ content

/-- `ENCODE(dst, h, rbus, sbus, sid, payload)`: the whole frame (R135). -/
def encodeFrame (dst h : Byte) (rbus sbus : BusId) (sid : Byte) (payload : List Byte) : List Byte :=
  frameBody dst h (framePrefix h rbus sbus sid ++ payload) ++
    [crc8 (frameBody dst h (framePrefix h rbus sbus sid ++ payload))]

/-- The four bytes of a frame from index `i` on, as a bus id. -/
def busIdAt (frame : List Byte) (i : Nat) : BusId :=
  ⟨frame.getD i 0, frame.getD (i + 1) 0, frame.getD (i + 2) 0, frame.getD (i + 3) 0⟩

/-- The address fields of `DECODE(F)` (R137); a field the header does not carry is zero (D20). Its callers give it a frame
with at least `overhead(h)` bytes (R138), so that every index it reads is inside the frame. -/
def decodeInfo (frame : List Byte) : PacketInfo :=
  let h := frame.getD 2 0
  { receiverId := frame.getD 0 0
    header := h
    receiverBusId := if modeBit h then busIdAt frame 3 else BusId.zero
    senderBusId := if modeBit h && senderInfoBit h then busIdAt frame 7 else BusId.zero
    senderId :=
      if senderInfoBit h then (if modeBit h then frame.getD 11 0 else frame.getD 3 0) else Config.broadcast }

/-- `payload_len` of `DECODE(F)`: from byte 1, never from byte 3 (R137, 90_conflicts.md C9). -/
def decodePayloadLen (frame : List Byte) : Nat :=
  (frame.getD 1 0).toNat - overhead (frame.getD 2 0) - 1

/-- The payload of `DECODE(F)`: `payload_len` bytes from `payload_off = overhead(h)` on (R137). -/
def decodePayload (frame : List Byte) : List Byte :=
  (frame.drop (overhead (frame.getD 2 0))).take (decodePayloadLen frame)

end Sys2Proof.Machine
end

