-- ==== Sys2Proof/Machine/State.lean ====
section
/-! DEFINITION. The state of the block as plain data (10_state.md), the reasons a step can stop, and reset
(70_reset_and_hazards.md R310). -/

namespace Sys2Proof.Machine

/-- `COMM_MODE`: 150 or 151, held as the two-valued type that 10_state.md R25 allows. -/
inductive CommMode where
  | simplex
  | halfDuplex
deriving DecidableEq, Repr

/-- `PKT[i].state`: six values, held as the six-valued type that 10_state.md R34 allows. -/
inductive SlotState where
  | free
  | toBeSent
  | ack
  | nak
  | busy
  | fail
deriving DecidableEq, Repr

/-- One slot of the outbound queue (10_state.md R33 to R41). -/
structure Slot where
  state : SlotState
  destination : Byte
  header : Byte
  content : List Byte
  length : Byte
  registration : Time
  attempts : Byte
  timing : Word
deriving DecidableEq, Repr

/-- The one value of a free slot: every field zero, no content (R42, R50, 41_queue_scheduler.md R157). -/
def Slot.empty : Slot :=
  { state := .free, destination := 0, header := 0, content := [], length := 0, registration := 0, attempts := 0, timing := 0 }

/-- The five error kinds (60_exceptions.md R280 to R285). -/
inductive ErrorKind where
  | connectionLost
  | packetsBufferFull
  | memoryFull
  | contentTooLong
  | idAcquisitionFail
deriving DecidableEq, Repr

/-- The tagged result of a command (00_scope.md R17, 30_encoding.md R118). -/
inductive Response where
  | void
  | slot (i : Byte)
  | enqFail
  | outcome (o : Outcome)
  | noop
  | id (v : Byte)
deriving DecidableEq, Repr

/-- One entry of the trace (20_memory.md R75): a port transaction with its answer, an event, or the response of a command. -/
inductive Entry where
  | canStart (idle : Bool)
  | sendByte (b : Byte)
  | receiveByte (v : Option Byte)
  | sendResponse (sym : Byte)
  | receiveResponse (v : Half)
  | now (t : Time)
  | delay (us : Nat)
  | random (n : Nat) (r : Nat)
  | seed
  | errevt (kind : ErrorKind) (data : Half)
  | rxevt (off : Byte) (len : Byte) (info : PacketInfo)
  | response (r : Response)
deriving DecidableEq, Repr

/-- The transient state of a command that takes more than one step (10_state.md R47, log 1). -/
inductive Running where
  /-- Between commands. -/
  | idle
  /-- Inside `RECEIVE_FOR`, before another pass (43_receive.md R230). -/
  | receiveFor (t0 : Time) (duration : Word)
  /-- Inside `ACQUIRE_ID`, before the window test of candidate `k` (45_id_acquisition.md R270). -/
  | acquireScan (t0 : Time) (k : Nat)
  /-- Inside `ACQUIRE_ID`, in the inner loop that waits for the probe of candidate `k` in slot `slot` (R270, R272). -/
  | acquireProbe (t0 : Time) (k : Nat) (slot : Nat)
deriving DecidableEq, Repr

/-- A byte array, sparse: `(index, byte)` cells with strictly rising indices; an index that is not listed has no value
(10_state.md R44, log 8). -/
abbrev Memory := List Host.Cell

/-- What stands for the outside of the block (10_state.md R48): the answers supplied to it, in order, the time the outside
clock has counted, and how many free values of Config have been drawn. The model's own fields (log 3, log 4). -/
structure Env where
  senseIn : List Bool
  byteIn : List (Option Byte)
  respIn : List Half
  elapsedIn : List Nat
  drawIn : List Nat
  time : Nat
  draws : Nat
deriving DecidableEq, Repr

/-- The state of the block between steps: the configuration registers (10_state.md R22 to R31), the queue (R33), the receive
side (R44 to R46), the parameter `PACKET_MAX_LENGTH` (00_scope.md R6), the transient state of a running command (R47), the
host's command stream and the trace (20_memory.md R65, R75), and the outside. -/
structure State where
  deviceId : Byte
  busId : BusId
  commMode : CommMode
  acknowledge : Bool
  senderInfoEn : Bool
  shared : Bool
  router : Bool
  autoDelete : Bool
  inputPin : Byte
  outputPin : Byte
  queue : List Slot
  rxbuf : Memory
  lpi : PacketInfo
  lpiValid : Bool
  packetMaxLength : Nat
  running : Running
  inbox : List (List Byte)
  trace : List Entry
  env : Env
deriving DecidableEq, Repr

/-- There is no fault state: "the core never panics or aborts; every failure has a defined code-path" (60_exceptions.md R280,
00_scope.md R13). So no step can fault, by the type (log 22). -/
inductive Fault where
deriving DecidableEq, Repr

/-- Why the model gives a situation no meaning (00_scope.md R13, 93_implementation_defined.md I1 to I3, I6). All are safe: the
spec defines no state change, no trace and no response for any of them. -/
inductive Refusal where
  /-- Raised by `exec` for an instruction without a meaning; safe. No arm of this model raises it. -/
  | notModelled (mnemonic : String)
  /-- Raised by `step` for a command packet with a reserved opcode or a wrong length (30_encoding.md R121, decision D32, I1);
  safe. -/
  | invalidPacket (why : DecodeError)
  /-- Raised by a meaning for a reserved operand value (30_encoding.md R122); safe. -/
  | reservedOperand
  /-- Raised by a meaning that would send a header with any of bits 7..3 set (30_encoding.md R94, R122); safe. -/
  | reservedHeaderBits
  /-- Raised by `REPLY` before any frame was accepted (44_controller.md R251); safe. -/
  | replyBeforeAccept
deriving DecidableEq, Repr

/-- The outside of the block when the model starts: nothing supplied, no time counted (DESIGN CHOICE, log 20). -/
def Env.start : Env :=
  { senseIn := [], byteIn := [], respIn := [], elapsedIn := [], drawIn := [], time := 0, draws := 0 }

/-- `RESET(INIT_DEVICE_ID, INIT_BUS_ID)` for given parameters (70_reset_and_hazards.md R310). The spec leaves the pins and
`LPI` unspecified: the zeros here are DESIGN CHOICE, unsafe (log 6, log 7); no byte of `RXBUF` has a value (log 8). -/
def State.resetWith (p : Config.Params) : State :=
  { deviceId := p.initDeviceId
    busId := p.initBusId
    commMode := .halfDuplex
    acknowledge := true
    senderInfoEn := false
    shared := decide (p.initBusId ≠ BusId.zero)
    router := false
    autoDelete := true
    inputPin := 0
    outputPin := 0
    queue := List.replicate p.maxPackets Slot.empty
    rxbuf := []
    lpi := ⟨0, 0, BusId.zero, BusId.zero, 0⟩
    lpiValid := false
    packetMaxLength := p.packetMaxLength
    running := .idle
    inbox := []
    trace := []
    env := Env.start }

/-- The machine right after reset, the parameters at their defaults: `MAX_PACKETS = 10`, `PACKET_MAX_LENGTH = 50`,
`INIT_DEVICE_ID = 255`, `INIT_BUS_ID = 0.0.0.0` (R50, R310). -/
def State.reset : State := State.resetWith {}

end Sys2Proof.Machine
end

