-- ==== Sys2Proof/Machine/Ops.lean ====
section
/-! DEFINITION. The named operations over the state: the byte array, the trace, the port transactions (20_memory.md), the
slots, the events (the block's form of taking an exception, 60_exceptions.md) and the responses. -/

namespace Sys2Proof.Machine

/-! ### The byte array -/

/-- The byte at an index; none where nothing was written (10_state.md R44, log 8). -/
def Memory.read : Memory → Nat → Option Byte
  | [], _ => none
  | c :: m, a => if c.1 = a then some c.2 else Memory.read m a

/-- Write one byte, keeping the indices strictly rising. -/
def Memory.write : Memory → Nat → Byte → Memory
  | [], a, b => [(a, b)]
  | c :: m, a, b =>
    if a < c.1 then (a, b) :: c :: m
    else if a = c.1 then (a, b) :: m
    else c :: Memory.write m a b

/-- The canonical form: indices strictly rising (so none is listed twice). An unlisted index has no value, so no listed cell
can equal what an unlisted index reads as. -/
abbrev Memory.wf (m : Memory) : Prop := m.Pairwise (fun x y => x.1 < y.1)

/-! ### Codes (30_encoding.md R100, R103, R104, R118) -/

/-- The 8-bit code of a communication mode (R25, R100). -/
def commModeCode : CommMode → Byte
  | .simplex => Config.simplexCode
  | .halfDuplex => Config.halfDuplexCode

/-- The 16-bit code of a slot state (R34, R103). -/
def slotStateCode : SlotState → Half
  | .free => 0
  | .toBeSent => Config.toBeSentCode
  | .ack => 6
  | .nak => 21
  | .busy => Config.busyCode
  | .fail => Config.failCode

/-- The slot state an outcome is stored as (41_queue_scheduler.md R163). -/
def slotStateOfOutcome : Outcome → SlotState
  | .ack => .ack
  | .nak => .nak
  | .busy => .busy
  | .fail => .fail

/-- The code of an error kind: 101 to 105 (R104). UNVERIFIED: the spec marks the numbers as general knowledge (log 11). -/
def errorCode : ErrorKind → Byte
  | .connectionLost => 101
  | .packetsBufferFull => 102
  | .memoryFull => 103
  | .contentTooLong => 104
  | .idAcquisitionFail => 105

/-- The error kind a code stands for, if any (R104). -/
def errorOfCode (code : Byte) : Option ErrorKind :=
  match code.toNat with
  | 101 => some .connectionLost
  | 102 => some .packetsBufferFull
  | 103 => some .memoryFull
  | 104 => some .contentTooLong
  | 105 => some .idAcquisitionFail
  | _ => none

/-- The `kind` byte of a response record (R118). -/
def responseKind : Response → Byte
  | .void => 0
  | .slot _ => 1
  | .enqFail => 2
  | .outcome _ => 3
  | .noop => 4
  | .id _ => 5

/-- The `value` of a response record (R118). -/
def responseValue : Response → Half
  | .void => 0
  | .slot i => i.setWidth 16
  | .enqFail => Config.failCode
  | .outcome o => outcomeCode o
  | .noop => 0
  | .id v => v.setWidth 16

/-! ### The trace -/

/-- Append one entry to the trace (20_memory.md R75). -/
def State.emit (e : Entry) (s : State) : State := { s with trace := s.trace ++ [e] }

/-- The response record that ends a command (R65, R118). -/
def respond (r : Response) (s : State) : State := s.emit (.response r)

/-! ### The strategy port (20_memory.md R66, R67). Each answer is the next supplied one, else a free value (log 3). -/

/-- `Phy.CanStart()`: carrier sense. -/
def canStart (s : State) : Bool × State :=
  match s.env.senseIn with
  | b :: rest => (b, { s with env := { s.env with senseIn := rest } }.emit (.canStart b))
  | [] =>
    (Config.freeSense s.env.draws,
      { s with env := { s.env with draws := s.env.draws + 1 } }.emit (.canStart (Config.freeSense s.env.draws)))

/-- `Phy.SendByte(b)`. -/
def sendByte (b : Byte) (s : State) : State := s.emit (.sendByte b)

/-- `Phy.SendByte` for each byte of a sequence, in index order (42_transmit.md R182 to R184). -/
def sendBytes (bs : List Byte) (s : State) : State := bs.foldl (fun s b => sendByte b s) s

/-- `Phy.ReceiveByte()`: a byte, or none for the sentinel `FAIL`. -/
def receiveByte (s : State) : Option Byte × State :=
  match s.env.byteIn with
  | v :: rest => (v, { s with env := { s.env with byteIn := rest } }.emit (.receiveByte v))
  | [] =>
    (Config.freeByte s.env.draws,
      { s with env := { s.env with draws := s.env.draws + 1 } }.emit (.receiveByte (Config.freeByte s.env.draws)))

/-- `Phy.SendResponse(sym)`. -/
def sendResponse (sym : Byte) (s : State) : State := s.emit (.sendResponse sym)

/-- `Phy.ReceiveResponse()`: any 16-bit value (R67). -/
def receiveResponse (s : State) : Half × State :=
  match s.env.respIn with
  | v :: rest => (v, { s with env := { s.env with respIn := rest } }.emit (.receiveResponse v))
  | [] =>
    (Config.freeResponse s.env.draws,
      { s with env := { s.env with draws := s.env.draws + 1 } }.emit (.receiveResponse (Config.freeResponse s.env.draws)))

/-! ### The clock port (20_memory.md R70, R71) -/

/-- How many microseconds pass before the next clock read, and the outside after they were taken from it. -/
def passTime (e : Env) : Env :=
  match e.elapsedIn with
  | d :: rest => { e with elapsedIn := rest, time := e.time + d }
  | [] => { e with time := e.time + Config.freeElapsed e.draws, draws := e.draws + 1 }

/-- The 64-bit clock value of an outside time (R70, R71). -/
def clockValue (e : Env) : Time := BitVec.ofNat 64 e.time

/-- `Clk.Now()`: any amount of time has passed since the last transaction, never a negative one (R71). -/
def now (s : State) : Time × State :=
  (clockValue (passTime s.env), { s with env := passTime s.env }.emit (.now (clockValue (passTime s.env))))

/-- `Clk.Delay(us)`: the clock moves on by at least `us` before the next read (R71). -/
def delay (us : Nat) (s : State) : State :=
  { s with env := { s.env with time := s.env.time + us } }.emit (.delay us)

/-- `Clk.Random(n)`: a free draw in `[0, n)` (R70, R71; log 5). -/
def random (n : Nat) (s : State) : Nat × State :=
  match s.env.drawIn with
  | r :: rest => (r % n, { s with env := { s.env with drawIn := rest } }.emit (.random n (r % n)))
  | [] =>
    (Config.freeDraw s.env.draws % n,
      { s with env := { s.env with draws := s.env.draws + 1 } }.emit (.random n (Config.freeDraw s.env.draws % n)))

/-- `Clk.Seed()`. -/
def seed (s : State) : State := s.emit .seed

/-- The time from `t0` to `t`, a difference modulo 2^64 (R71, 41_queue_scheduler.md R162). -/
def elapsed (t t0 : Time) : Nat := (t - t0).toNat

/-! ### Events: the block's form of taking an exception (60_exceptions.md R290 to R293). An event saves nothing, changes no
register and no mode; it is one entry of the trace, and the command goes on with its next statement. -/

/-- `emit ERREVT(code, data)` (R291, 30_encoding.md R120). -/
def raiseError (kind : ErrorKind) (data : Half) (s : State) : State := s.emit (.errevt kind data)

/-- `emit RXEVT(off, len, info)` (R290, 30_encoding.md R119). -/
def raiseReceive (off len : Byte) (info : PacketInfo) (s : State) : State := s.emit (.rxevt off len info)

/-! ### Slots (10_state.md R33) -/

/-- `PKT[i]`. -/
def slotAt (s : State) (i : Nat) : Slot := s.queue.getD i Slot.empty

/-- `PKT[i] <- p`. -/
def setSlot (i : Nat) (p : Slot) (s : State) : State := { s with queue := s.queue.set i p }

/-- The least free slot, if any (41_queue_scheduler.md R153). -/
def freeSlot (s : State) : Option Nat := s.queue.findIdx? (fun p => decide (p.state = .free))

/-- `REMOVE1(i)`: slot `i` takes the one value of a free slot (R157). -/
def removeSlot (i : Nat) (s : State) : State := setSlot i Slot.empty s

/-! ### The receive buffer -/

/-- `RXBUF[i] <- b` (43_receive.md R208). -/
def storeRx (i : Nat) (b : Byte) (s : State) : State := { s with rxbuf := s.rxbuf.write i b }

end Sys2Proof.Machine
end

