-- ==== Sys2Proof/Machine/Operands.lean ====
section
/-! DEFINITION. The operand forms of the commands: Boolean, mode, slot and header operands, with the values that are reserved
(30_encoding.md R122), and the header the controller chooses (41_queue_scheduler.md R151). -/

namespace Sys2Proof.Machine

/-- A Boolean operand: 0 or 1, other values reserved (R122). -/
def boolOperand (v : Byte) : Option Bool :=
  if v = 0 then some false else if v = 1 then some true else none

/-- The operand of `SET_MODE`: 150 or 151, other values reserved (R122). -/
def modeOperand (m : Byte) : Option CommMode :=
  if m = Config.simplexCode then some .simplex
  else if m = Config.halfDuplexCode then some .halfDuplex
  else none

/-- The `hsel` and `header` operands of `ENQUEUE` (R114): `hsel = 0` leaves the choice to the controller, whatever `header`
is; `hsel = 1` gives the header, whose bits 7..3 must be zero; other values of `hsel` are reserved (R122). -/
def headerOperand (hsel header : Byte) : Except Refusal (Option Byte) :=
  if hsel = 0 then .ok none
  else if hsel = 1 then
    if reservedBitsClear header then .ok (some header) else .error .reservedHeaderBits
  else .error .reservedOperand

/-- `choose_header`: an explicit header as given; otherwise `MODE` iff shared, `SENDER_INFO` iff configured, `ACK_REQUEST` iff
acknowledge enabled (R151). -/
def chooseHeader (explicit : Option Byte) (s : State) : Byte :=
  match explicit with
  | some h => h
  | none => headerOfBits s.shared s.senderInfoEn s.acknowledge

end Sys2Proof.Machine
end

