-- ==== Sys2Proof/Machine/Queue.lean ====
section
/-! DEFINITION. The outbound queue (41_queue_scheduler.md): the micro-operation `ENQ`, and the meanings of `ENQUEUE` with its
pseudo-commands, and of `REMOVE`. -/

namespace Sys2Proof.Machine

/-- The length of the frame that would be sent, an unbounded natural (R152). -/
def frameLength (h : Byte) (payload : List Byte) : Nat := overhead h + payload.length + 1

/-- The slot contents that a successful enqueue writes (R154, R155). -/
def pendingSlot (dst h : Byte) (content : List Byte) (t : Time) (timing : Word) : Slot :=
  { state := .toBeSent, destination := dst, header := h, content := content, length := BitVec.ofNat 8 content.length,
    registration := t, attempts := 0, timing := timing }

/-- `prefix(h, rbus, BUS_ID, DEVICE_ID) ++ payload` at this moment (R154). -/
def slotContent (h : Byte) (rbus : BusId) (payload : List Byte) (s : State) : List Byte :=
  framePrefix h rbus s.busId s.deviceId ++ payload

/-- `ENQ` (R150): the index of the slot taken, or none for `ENQ_FAIL`. The length check comes before the search for a slot
(R152), and the clock is read after both have passed (R155). -/
def enq (dst : Byte) (rbus : BusId) (timing : Word) (explicit : Option Byte) (payload : List Byte) (s : State) :
    Option Nat × State :=
  let h := chooseHeader explicit s
  if s.packetMaxLength ≤ frameLength h payload then
    (none, raiseError .contentTooLong (BitVec.ofNat 16 (frameLength h payload)) s)
  else
    match freeSlot s with
    | none => (none, raiseError .packetsBufferFull (BitVec.ofNat 16 s.queue.length) s)
    | some i => (some i, setSlot i (pendingSlot dst h (slotContent h rbus payload s) (now s).1 timing) (now s).2)

/-- The result of `ENQ` as a response: `SLOT(s)` or `ENQ_FAIL` (R150, R156). -/
def enqResponse : Option Nat → Response
  | some i => .slot (BitVec.ofNat 8 i)
  | none => .enqFail

/-- `ENQ` as a command: the response follows the event, if any (R156). -/
def enqueueCommand (dst : Byte) (rbus : BusId) (timing : Word) (explicit : Option Byte) (payload : List Byte) (s : State) :
    State :=
  respond (enqResponse (enq dst rbus timing explicit payload s).1) (enq dst rbus timing explicit payload s).2

/-- A command with `hsel` and `header` operands: refused where they are reserved (30_encoding.md R122). -/
def enqueueOperands (dst : Byte) (rbus : BusId) (timing : Word) (hsel header : Byte) (payload : List Byte) (s : State) :
    Host.Outcome State Fault Refusal :=
  match headerOperand hsel header with
  | .ok explicit => .next (enqueueCommand dst rbus timing explicit payload s)
  | .error r => .refused r

/-- `ENQUEUE dst, rbus, timing, hsel, header, len, payload` (R150). -/
def execEnqueue (dst : Byte) (rbus : BusId) (timing : Word) (hsel header : Byte) (payload : List Byte) (s : State) :
    Host.Outcome State Fault Refusal :=
  enqueueOperands dst rbus timing hsel header payload s

/-- `SEND dst, bus, payload`: `ENQUEUE dst, bus, 0, auto, payload` (30_encoding.md R126). -/
def execSend (dst : Byte) (bus : BusId) (payload : List Byte) (s : State) : Host.Outcome State Fault Refusal :=
  .next (enqueueCommand dst bus 0 none payload s)

/-- `SEND_H dst, bus, payload, header`: `ENQUEUE dst, bus, 0, header, payload` (R126). -/
def execSendH (dst : Byte) (bus : BusId) (payload : List Byte) (header : Byte) (s : State) :
    Host.Outcome State Fault Refusal :=
  enqueueOperands dst bus 0 1 header payload s

/-- `SEND_REPEATEDLY dst, bus, payload, timing`: `ENQUEUE dst, bus, timing, auto, payload` (R126). -/
def execSendRepeatedly (dst : Byte) (bus : BusId) (payload : List Byte) (timing : Word) (s : State) :
    Host.Outcome State Fault Refusal :=
  .next (enqueueCommand dst bus timing none payload s)

/-- `SEND_REPEATEDLY_H dst, bus, payload, timing, header`: `ENQUEUE dst, bus, timing, header, payload` (R126). -/
def execSendRepeatedlyH (dst : Byte) (bus : BusId) (payload : List Byte) (timing : Word) (header : Byte) (s : State) :
    Host.Outcome State Fault Refusal :=
  enqueueOperands dst bus timing 1 header payload s

/-- `REMOVE slot`, legal when `slot < MAX_PACKETS`, otherwise refused (R157, R122). -/
def execRemove (slot : Byte) (s : State) : Host.Outcome State Fault Refusal :=
  if slot.toNat < s.queue.length then .next (respond .void (removeSlot slot.toNat s)) else .refused .reservedOperand

end Sys2Proof.Machine
end

