-- ==== Sys2Proof/Machine/Transmit.lean ====
section
/-! DEFINITION. The transmit engine (42_transmit.md): carrier sense, frame, acknowledgment wait. -/

namespace Sys2Proof.Machine

/-- The acknowledgment wait and the classification of the response (R186, R187): one `ReceiveResponse`; after a `NAK` or a
garbled symbol a random delay of 0 to 15 µs. -/
def awaitResponse (s : State) : Outcome × State :=
  let r := receiveResponse s
  if (classifyResponse r.1).2 then
    let d := random Config.collisionMaxDelay r.2
    ((classifyResponse r.1).1, delay d.1 d.2)
  else ((classifyResponse r.1).1, r.2)

/-- No acknowledgment is expected: `ACKNOWLEDGE` off, a broadcast, or simplex (R185). -/
def noAckExpected (dst : Byte) (s : State) : Bool :=
  !s.acknowledge || decide (dst = Config.broadcast) || decide (s.commMode = .simplex)

/-- The bytes of the frame, head, body and CRC, in the order they are sent (R182 to R184). -/
def frameBytes (dst lengthByte h : Byte) (body : List Byte) : List Byte :=
  [dst, lengthByte, h] ++ body ++ [crc8 ([dst, lengthByte, h] ++ body)]

/-- `TX` after the carrier sense: the frame is sent, then the response awaited where one is expected (R182 to R187). -/
def transmitFrame (dst len h : Byte) (body : List Byte) (s : State) : Outcome × State :=
  let s1 := sendBytes (frameBytes dst (len + 4) h body) s
  if noAckExpected dst s1 then (.ack, s1) else awaitResponse s1

/-- `TX` on a destination, a content length, a header and a content (R180): in half-duplex the medium is sensed once, before
the first byte, and a busy medium gives `BUSY` with nothing sent (R181). -/
def transmit (dst len h : Byte) (body : List Byte) (s : State) : Outcome × State :=
  if s.commMode = .simplex then transmitFrame dst len h body s
  else
    let c := canStart s
    if c.1 then transmitFrame dst len h body c.2 else (.busy, c.2)

/-- `TX(i)`: the transmit engine on slot `i` (R180). The body is `content[0 .. length-1]` (R183). -/
def transmitSlot (i : Nat) (s : State) : Outcome × State :=
  let p := slotAt s i
  transmit p.destination p.length p.header (p.content.take p.length.toNat) s

end Sys2Proof.Machine
end

