-- ==== Sys2Proof/Machine/Scheduler.lean ====
section
/-! DEFINITION. The retry scheduler (41_queue_scheduler.md): the due test, the outcome handling, `TICK`, and the meanings of
`UPDATE` and of its pseudo-command `TICK`. -/

namespace Sys2Proof.Machine

/-- `DUE(p, t)`: strict, a 64-bit difference on the left, an exact natural on the right (R162). -/
def due (p : Slot) (t : Time) : Bool :=
  decide (p.timing.toNat + p.attempts.toNat ^ 3 < elapsed t p.registration)

/-- `is_acquire_probe`: the payload is the single byte 63 (R166). -/
def isAcquireProbe (p : Slot) : Bool :=
  decide (p.length.toNat = prefixLen p.header + 1) && decide (p.content[prefixLen p.header]? = some Config.acquireIdByte)

/-- A one-shot slot that is freed when it ends: `timing = 0` and `AUTO_DELETE = 1` (R164, R168). -/
def freedAtEnd (p : Slot) (s : State) : Bool := decide (p.timing = 0) && s.autoDelete

/-- `handle_ack(i)` (R164): freed, or re-armed with a fresh clock value. -/
def handleAck (i : Nat) (s : State) : State :=
  if freedAtEnd (slotAt s i) s then removeSlot i s
  else
    setSlot i { slotAt s i with attempts := 0, registration := (now s).1, state := .toBeSent } (now s).2

/-- What follows `CONNECTION_LOST` (R168): (a) freed, (b) attempts reset, (c) nothing more. -/
def afterConnectionLost (i : Nat) (s : State) : State :=
  if freedAtEnd (slotAt s i) s then removeSlot i s
  else if (slotAt s i).timing ≠ 0 then setSlot i { slotAt s i with attempts := 0 } s
  else s

/-- The slot has crossed `MAX_ATTEMPTS` (R165): adoption of the id for an acquisition probe (R166), else `CONNECTION_LOST`
with the destination (R167) and what follows it. -/
def handleExhausted (i : Nat) (s : State) : State :=
  if isAcquireProbe (slotAt s i) then removeSlot i { s with deviceId := (slotAt s i).destination }
  else afterConnectionLost i (raiseError .connectionLost ((slotAt s i).destination.setWidth 16) s)

/-- The attempt count goes up by one, modulo 256 (R165, D12). -/
def countAttempt (i : Nat) (s : State) : State :=
  setSlot i { slotAt s i with attempts := (slotAt s i).attempts + 1 } s

/-- `handle_fail(i)` (R165). -/
def handleFail (i : Nat) (s : State) : State :=
  let s1 := countAttempt i s
  if Config.maxAttempts < (slotAt s1 i).attempts.toNat then handleExhausted i s1 else s1

/-- The outcome is written into the slot's state (R163). -/
def storeOutcome (i : Nat) (o : Outcome) (s : State) : State :=
  setSlot i { slotAt s i with state := slotStateOfOutcome o } s

/-- What the scheduler does with an outcome (R163 to R169). -/
def handleOutcome (i : Nat) (o : Outcome) (s : State) : State :=
  let s1 := storeOutcome i o s
  match o with
  | .ack => handleAck i s1
  | .fail => handleFail i s1
  | .busy => s1
  | .nak => s1

/-- One iteration of `TICK`: a free slot is passed over without a clock read; a pending slot that is due transmits once
(R160, R161). -/
def tickSlot (i : Nat) (s : State) : State :=
  if (slotAt s i).state = .free then s
  else
    let c := now s
    if due (slotAt s i) c.1 then
      let x := transmitSlot i c.2
      handleOutcome i x.1 x.2
    else c.2

/-- `TICK()`: every slot once, in increasing index (R160, R161). -/
def tick (s : State) : State := (List.range s.queue.length).foldl (fun s i => tickSlot i s) s

/-- `UPDATE` (R160). -/
def execUpdate (s : State) : Host.Outcome State Fault Refusal := .next (respond .void (tick s))

/-- The pseudo-command `TICK`: a spelling of `UPDATE` (30_encoding.md R126). -/
def execTick (s : State) : Host.Outcome State Fault Refusal := .next (respond .void (tick s))

end Sys2Proof.Machine
end

