-- ==== Sys2Proof/Machine/Acquire.lean ====
section
/-! DEFINITION. The address-request arbiter (45_id_acquisition.md): the meaning of `ACQUIRE_ID` and the turns of its two
loops, one turn a step (00_scope.md R11, log 1). -/

namespace Sys2Proof.Machine

/-- The command ends with `VOID`, and nothing runs any more (R270). -/
def endAcquire (s : State) : State := respond .void { s with running := .idle }

/-- The scan ends without an id: `ID_ACQUISITION_FAIL` with data `FAIL`, then the response (R274). -/
def failAcquire (s : State) : State := endAcquire (raiseError .idAcquisitionFail Config.failCode s)

/-- The window of the scan is over: `now − t0 ≥ MAX_ID_SCAN_TIME`, non-strict (R272). -/
def scanOver (t t0 : Time) : Bool := decide (Config.maxIdScanTime ≤ elapsed t t0)

/-- The probe of candidate `k`: one byte 63 to `k`, one-shot, our own bus id, header chosen (R271). -/
def enqProbe (k : Nat) (s : State) : Option Nat × State :=
  enq (BitVec.ofNat 8 k) s.busId 0 none [Config.acquireIdByte] s

/-- One turn of the outer loop (R270): the window test, then the probe of candidate `k`; the scan ends when the candidates are
used up, the window is over or the probe cannot be enqueued. -/
def acquireScanTurn (t0 : Time) (k : Nat) (s : State) : State :=
  if k ≤ 254 then
    let c := now s
    if scanOver c.1 t0 then failAcquire c.2
    else
      let e := enqProbe k c.2
      match e.1 with
      | none => failAcquire e.2
      | some i => { e.2 with running := .acquireProbe t0 k i }
  else failAcquire s

/-- After the inner loop (R273): an assigned id ends the command, otherwise the next candidate is up. -/
def acquireNext (t0 : Time) (k : Nat) (s : State) : State :=
  if s.deviceId ≠ Config.notAssigned then endAcquire s else { s with running := .acquireScan t0 (k + 1) }

/-- One turn of the inner loop (R270, R272): the slot test first, then the window test, then one `TICK`. -/
def acquireProbeTurn (t0 : Time) (k slot : Nat) (s : State) : State :=
  if (slotAt s slot).state = .free then acquireNext t0 k s
  else
    let c := now s
    if scanOver c.1 t0 then acquireNext t0 k c.2
    else tick { c.2 with running := .acquireProbe t0 k slot }

/-- `ACQUIRE_ID` (R270): the start time, then the first turn, for candidate 1. -/
def execAcquireId (s : State) : Host.Outcome State Fault Refusal := .next (acquireScanTurn (now s).1 1 (now s).2)

end Sys2Proof.Machine
end

