-- ==== Sys2Proof/Machine/Controller.lean ====
section
/-! DEFINITION. The bus controller's commands (44_controller.md): `BEGIN`, the setters, `GET_ID` and `REPLY`. -/

namespace Sys2Proof.Machine

/-- `BEGIN` (R240): seed, draw whole milliseconds below 1000, sleep as many thousand microseconds (also for 0). -/
def execBegin (s : State) : Host.Outcome State Fault Refusal :=
  let r := random Config.initialMaxDelay (seed s)
  .next (respond .void (delay (r.1 * 1000) r.2))

/-- A setter with a Boolean operand: reserved values are refused (30_encoding.md R122); otherwise the register is written and
nothing else, and the result is `VOID` (44_controller.md section 2). -/
def setFlag (v : Byte) (write : Bool → State) : Host.Outcome State Fault Refusal :=
  match boolOperand v with
  | some b => .next (respond .void (write b))
  | none => .refused .reservedOperand

/-- `SET_ID id`: every 8-bit value is accepted (R241). -/
def execSetId (id : Byte) (s : State) : Host.Outcome State Fault Refusal := .next (respond .void { s with deviceId := id })

/-- `SET_BUS_ID bus`: `SHARED` is left alone (R242). -/
def execSetBusId (bus : BusId) (s : State) : Host.Outcome State Fault Refusal := .next (respond .void { s with busId := bus })

/-- `SET_SHARED v` (R243). -/
def execSetShared (v : Byte) (s : State) : Host.Outcome State Fault Refusal := setFlag v fun b => { s with shared := b }

/-- `SET_ROUTER v` (R244). -/
def execSetRouter (v : Byte) (s : State) : Host.Outcome State Fault Refusal := setFlag v fun b => { s with router := b }

/-- `SET_SENDER_INFO v` (R245). -/
def execSetSenderInfo (v : Byte) (s : State) : Host.Outcome State Fault Refusal :=
  setFlag v fun b => { s with senderInfoEn := b }

/-- `SET_ACK v` (R246). -/
def execSetAck (v : Byte) (s : State) : Host.Outcome State Fault Refusal := setFlag v fun b => { s with acknowledge := b }

/-- `SET_AUTO_DELETE v` (R247). -/
def execSetAutoDelete (v : Byte) (s : State) : Host.Outcome State Fault Refusal :=
  setFlag v fun b => { s with autoDelete := b }

/-- `SET_MODE m`: 150 or 151, any other value is refused (R248). -/
def execSetMode (m : Byte) (s : State) : Host.Outcome State Fault Refusal :=
  match modeOperand m with
  | some c => .next (respond .void { s with commMode := c })
  | none => .refused .reservedOperand

/-- `SET_PINS in, out` (R249). -/
def execSetPins (inPin outPin : Byte) (s : State) : Host.Outcome State Fault Refusal :=
  .next (respond .void { s with inputPin := inPin, outputPin := outPin })

/-- `GET_ID`: `ID(DEVICE_ID)` (R250). -/
def execGetId (s : State) : Host.Outcome State Fault Refusal := .next (respond (.id s.deviceId) s)

/-- `REPLY len, payload` (R251): refused before any frame was accepted; a no-op when the last sender was broadcast; otherwise a
one-shot enqueue to the last sender's id and bus with a header chosen now. -/
def execReply (payload : List Byte) (s : State) : Host.Outcome State Fault Refusal :=
  if s.lpiValid then
    if s.lpi.senderId = Config.broadcast then .next (respond .noop s)
    else .next (enqueueCommand s.lpi.senderId s.lpi.senderBusId 0 none payload s)
  else .refused .replyBeforeAccept

end Sys2Proof.Machine
end

