-- ==== Sys2Proof/Machine/Receive.lean ====
section
/-! DEFINITION. The receive engine (43_receive.md): `RECEIVE1` byte by byte, and the meanings of `RECEIVE` and `RECEIVE_FOR`. -/

namespace Sys2Proof.Machine

/-- Read byte `i` of a frame into `RXBUF[i]`, before any test on it (R202, R208). -/
def receiveInto (i : Nat) (s : State) : Option Byte × State :=
  let r := receiveByte s
  match r.1 with
  | none => (none, r.2)
  | some b => (some b, storeRx i b r.2)

/-- The filter on byte 0: not our id, not broadcast, not a router (R203). -/
def rejectsReceiver (dst : Byte) (s : State) : Bool :=
  decide (dst ≠ s.deviceId) && decide (dst ≠ Config.broadcast) && !s.router

/-- The test on byte 1: legal lengths are `5 .. PACKET_MAX_LENGTH − 1` (R204). -/
def rejectsLength (len : Byte) (s : State) : Bool :=
  decide (len.toNat ≤ 4) || decide (s.packetMaxLength ≤ len.toNat)

/-- The filter on byte 2: shared and private traffic are kept apart, unless a router (R205). -/
def rejectsHeader (h : Byte) (s : State) : Bool := decide (modeBit h ≠ s.shared) && !s.router

/-- The filter on bytes 3 to 6: the receiver bus id, byte by byte (R206). -/
def rejectsBusByte (i : Nat) (h b : Byte) (s : State) : Bool :=
  decide (3 ≤ i ∧ i ≤ 6) && s.shared && modeBit h && !s.router && decide (s.busId.bytes[i - 3]? ≠ some b)

/-- What reading the rest of a frame came to: an early end, or the whole frame. -/
inductive RxScan where
  | stopped (o : Outcome)
  | whole (frame : List Byte)
deriving DecidableEq, Repr

/-- Read the bytes from index `i` on, `n` of them, after the bytes `frame` (R201). -/
def receiveRest : (n : Nat) → (i : Nat) → (h : Byte) → (frame : List Byte) → State → RxScan × State
  | 0, _, _, frame, s => (.whole frame, s)
  | n + 1, i, h, frame, s =>
    let r := receiveInto i s
    match r.1 with
    | none => (.stopped .fail, r.2)
    | some b =>
      if rejectsBusByte i h b r.2 then (.stopped .busy, r.2)
      else receiveRest n (i + 1) h (frame ++ [b]) r.2

/-- The whole frame passed its checks: the CRC over all its bytes is 0 and it is as long as its header needs (R209, R210). -/
def frameValid (frame : List Byte) : Bool :=
  decide (crc8 frame = 0) && decide (overhead (frame.getD 2 0) + 1 ≤ frame.length)

/-- The acknowledgment guard (R212), read from the frame as received: `ACK_REQUEST` set, not a broadcast, not simplex, and
private or a complete receiver bus id that equals ours. -/
def ackGuard (frame : List Byte) (s : State) : Bool :=
  ackRequestBit (frame.getD 2 0) && decide (frame.getD 0 0 ≠ Config.broadcast) && decide (s.commMode ≠ .simplex) &&
    (!s.shared ||
      (modeBit (frame.getD 2 0) && decide (7 ≤ frame.length) && decide (busIdAt frame 3 = s.busId)))

/-- The response symbol, where the guard holds (R213, R216). -/
def respondSymbol (sym : Byte) (frame : List Byte) (s : State) : State :=
  if ackGuard frame s then sendResponse sym s else s

/-- `LPI <- fields of DECODE`, `LPI_VALID <- 1` (R211). -/
def storeInfo (frame : List Byte) (s : State) : State := { s with lpi := decodeInfo frame, lpiValid := true }

/-- A frame accepted (R211, R213 to R215, R217): metadata, then the acknowledgment, then the event. -/
def acceptFrame (frame : List Byte) (s : State) : State :=
  let s1 := respondSymbol Config.ackSymbol frame (storeInfo frame s)
  raiseReceive (BitVec.ofNat 8 (overhead (frame.getD 2 0))) (BitVec.ofNat 8 (decodePayloadLen frame)) s1.lpi s1

/-- The end of a frame that was read whole (R209 to R216). -/
def finishFrame (frame : List Byte) (s : State) : Outcome × State :=
  if frameValid frame then (.ack, acceptFrame frame s) else (.nak, respondSymbol Config.nakSymbol frame s)

/-- The pass after the header byte was accepted: the remaining `total − 3` bytes, then the end of the frame (R201). -/
def receiveTail (dst len h : Byte) (s : State) : Outcome × State :=
  let r := receiveRest (len.toNat - 3) 3 h [dst, len, h] s
  match r.1 with
  | .stopped o => (o, r.2)
  | .whole frame => finishFrame frame r.2

/-- The pass after the length byte was accepted: byte 2 (R201, R205). -/
def receiveHeader (dst len : Byte) (s : State) : Outcome × State :=
  let r := receiveInto 2 s
  match r.1 with
  | none => (.fail, r.2)
  | some h => if rejectsHeader h r.2 then (.busy, r.2) else receiveTail dst len h r.2

/-- The pass after the receiver id was accepted: byte 1 (R201, R204). -/
def receiveLength (dst : Byte) (s : State) : Outcome × State :=
  let r := receiveInto 1 s
  match r.1 with
  | none => (.fail, r.2)
  | some len => if rejectsLength len r.2 then (.fail, r.2) else receiveHeader dst len r.2

/-- `RECEIVE1`: one pass of the receive engine (R201). -/
def receive1 (s : State) : Outcome × State :=
  let r := receiveInto 0 s
  match r.1 with
  | none => (.fail, r.2)
  | some dst => if rejectsReceiver dst r.2 then (.busy, r.2) else receiveLength dst r.2

/-- `RECEIVE` (R200). -/
def execReceive (s : State) : Host.Outcome State Fault Refusal :=
  .next (respond (.outcome (receive1 s).1) (receive1 s).2)

/-- `RECEIVE_FOR` ends: its response, and nothing runs any more. -/
def endReceiveFor (o : Outcome) (s : State) : State := respond (.outcome o) { s with running := .idle }

/-- One turn of the loop of `RECEIVE_FOR` (R230): a pass; an `ACK` ends the command at once; after any other outcome the clock
is read, and the command ends when the window is over, with the outcome of this pass, or runs on (log 1). -/
def receiveForTurn (t0 : Time) (duration : Word) (s : State) : State :=
  let r := receive1 s
  if r.1 = .ack then endReceiveFor .ack r.2
  else
    let c := now r.2
    if duration.toNat < elapsed c.1 t0 then endReceiveFor r.1 c.2
    else { c.2 with running := .receiveFor t0 duration }

/-- `RECEIVE_FOR duration` (R230): the start time, then the first turn of the loop. -/
def execReceiveFor (duration : Word) (s : State) : Host.Outcome State Fault Refusal :=
  .next (receiveForTurn (now s).1 duration (now s).2)

end Sys2Proof.Machine
end

