-- ==== Sys2Proof/Machine/Wire.lean ====
section
/-! DEFINITION. The rows of the opcode table that are no host commands: frames and response symbols on the wire, seen from
either end, and the response and event records that the block puts on its streams (30_encoding.md R90, R99, R118 to R120;
log 13, log 14). The host cannot issue them (R127), so `step` takes none: a row says what the engine does with it inside the
command that runs the engine, `UPDATE` or `RECEIVE` (70_reset_and_hazards.md R320). They end no command, so they add no response
record of their own. -/

namespace Sys2Proof.Machine

/-- The strategy has a frame's bytes to deliver, in index order (20_memory.md R72; log 13). -/
def deliverFrame (frame : List Byte) (s : State) : State :=
  { s with env := { s.env with byteIn := frame.map some } }

/-- The strategy is given a response symbol to return next (R99; log 13). -/
def deliverSymbol (sym : Byte) (s : State) : State :=
  { s with env := { s.env with respIn := sym.setWidth 16 :: s.env.respIn } }

/-- A frame sent: the transmit engine over its fields (R180). The engine computes the CRC byte itself (R184). A header with
reserved bits set must not be sent (R94). DESIGN CHOICE (log 24): a row whose length is outside `5 .. PACKET_MAX_LENGTH − 1`
(R90), which no enqueue but that of an empty `FRAME_LOCAL` produces, is sent as it is. -/
def sendFrame (dst h : Byte) (content : List Byte) (s : State) : Host.Outcome State Fault Refusal :=
  if reservedBitsClear h then .next (transmit dst (BitVec.ofNat 8 content.length) h content s).2
  else .refused .reservedHeaderBits

/-- A frame received: one pass of the receive engine, to which the strategy delivers the frame's bytes (R201). What the strategy
answers after the pass is what it would have answered without the row, supplied or free, also where the pass abandoned the frame
early: a later byte of this frame, another frame or `FAIL` (70_reset_and_hazards.md R325, 10_state.md R48). -/
def receiveFrame (dst h : Byte) (content : List Byte) (crc : Byte) (s : State) : Host.Outcome State Fault Refusal :=
  .next { (receive1 (deliverFrame (frameBody dst h content ++ [crc]) s)).2 with env := s.env }

/-- A frame crossing the wire, in one direction or the other. -/
def wireFrame (dir : Direction) (dst h : Byte) (content : List Byte) (crc : Byte) (s : State) :
    Host.Outcome State Fault Refusal :=
  match dir with
  | .sent => sendFrame dst h content s
  | .received => receiveFrame dst h content crc s

/-- A response symbol crossing the wire: sent, one `SendResponse` (R213, R216); received, the acknowledgment wait that reads
it (R186, R187). -/
def wireSymbol (dir : Direction) (sym : Byte) (s : State) : State :=
  match dir with
  | .sent => sendResponse sym s
  | .received => (awaitResponse (deliverSymbol sym s)).2

/-- `FRAME_LOCAL` (R95): no optional fields. -/
def execFrameLocal (dir : Direction) (dst : Byte) (flags : BitVec 6) (payload : List Byte) (crc : Byte) (s : State) :
    Host.Outcome State Fault Refusal :=
  wireFrame dir dst (headerOfRow flags 0) payload crc s

/-- `FRAME_SHARED` (R95): receiver bus id. -/
def execFrameShared (dir : Direction) (dst : Byte) (flags : BitVec 6) (rbus : BusId) (payload : List Byte) (crc : Byte)
    (s : State) : Host.Outcome State Fault Refusal :=
  wireFrame dir dst (headerOfRow flags 1) (rbus.bytes ++ payload) crc s

/-- `FRAME_LOCAL_SENDER` (R95): sender device id. -/
def execFrameLocalSender (dir : Direction) (dst : Byte) (flags : BitVec 6) (sid : Byte) (payload : List Byte) (crc : Byte)
    (s : State) : Host.Outcome State Fault Refusal :=
  wireFrame dir dst (headerOfRow flags 2) ([sid] ++ payload) crc s

/-- `FRAME_SHARED_SENDER` (R95): receiver bus id, sender bus id, sender device id. -/
def execFrameSharedSender (dir : Direction) (dst : Byte) (flags : BitVec 6) (rbus sbus : BusId) (sid : Byte)
    (payload : List Byte) (crc : Byte) (s : State) : Host.Outcome State Fault Refusal :=
  wireFrame dir dst (headerOfRow flags 3) (rbus.bytes ++ sbus.bytes ++ [sid] ++ payload) crc s

/-- The symbol `ACK = 6` (R99). -/
def execAck (dir : Direction) (s : State) : Host.Outcome State Fault Refusal := .next (wireSymbol dir Config.ackSymbol s)

/-- The symbol `NAK = 21` (R99). -/
def execNak (dir : Direction) (s : State) : Host.Outcome State Fault Refusal := .next (wireSymbol dir Config.nakSymbol s)

/-- The response record `VOID` (R118). -/
def execRespVoid (s : State) : Host.Outcome State Fault Refusal := .next (respond .void s)

/-- The response record `SLOT(i)`, `0 ≤ i < MAX_PACKETS` (R118). -/
def execRespSlot (slot : Byte) (s : State) : Host.Outcome State Fault Refusal :=
  if slot.toNat < s.queue.length then .next (respond (.slot slot) s) else .refused .reservedOperand

/-- The response record `ENQ_FAIL` (R118). -/
def execRespEnqFail (s : State) : Host.Outcome State Fault Refusal := .next (respond .enqFail s)

/-- The response record `OUTCOME(o)` (R118). -/
def execRespOutcome (o : Outcome) (s : State) : Host.Outcome State Fault Refusal := .next (respond (.outcome o) s)

/-- The response record `NOOP` (R118). -/
def execRespNoop (s : State) : Host.Outcome State Fault Refusal := .next (respond .noop s)

/-- The response record `ID(v)` (R118). -/
def execRespId (id : Byte) (s : State) : Host.Outcome State Fault Refusal := .next (respond (.id id) s)

/-- The receive event record (R119, R290). -/
def execRxevt (off len : Byte) (info : PacketInfo) (s : State) : Host.Outcome State Fault Refusal :=
  .next (raiseReceive off len info s)

/-- The error event record (R120, R291); a code of no error kind is refused. -/
def execErrevt (code : Byte) (data : Half) (s : State) : Host.Outcome State Fault Refusal :=
  match errorOfCode code with
  | some kind => .next (raiseError kind data s)
  | none => .refused .reservedOperand

end Sys2Proof.Machine
end

