-- ==== Sys2Proof/Machine/Dispatch.lean ====
section
/-! DEFINITION. One arm per row of spec/opcode_table.json. -/

namespace Sys2Proof.Machine

open Sys2Proof

def exec (i : Instr) (s : State) : Host.Outcome State Fault Refusal :=
  match i with
  | .beginOp => Sys2Proof.Machine.execBegin s
  | .update => Sys2Proof.Machine.execUpdate s
  | .receive => Sys2Proof.Machine.execReceive s
  | .receiveFor duration => Sys2Proof.Machine.execReceiveFor duration s
  | .enqueue dst rbus timing hsel header payload => Sys2Proof.Machine.execEnqueue dst rbus timing hsel header payload s
  | .reply payload => Sys2Proof.Machine.execReply payload s
  | .remove slot => Sys2Proof.Machine.execRemove slot s
  | .acquireId => Sys2Proof.Machine.execAcquireId s
  | .getId => Sys2Proof.Machine.execGetId s
  | .setId id => Sys2Proof.Machine.execSetId id s
  | .setBusId bus => Sys2Proof.Machine.execSetBusId bus s
  | .setShared v => Sys2Proof.Machine.execSetShared v s
  | .setRouter v => Sys2Proof.Machine.execSetRouter v s
  | .setSenderInfo v => Sys2Proof.Machine.execSetSenderInfo v s
  | .setAck v => Sys2Proof.Machine.execSetAck v s
  | .setAutoDelete v => Sys2Proof.Machine.execSetAutoDelete v s
  | .setMode m => Sys2Proof.Machine.execSetMode m s
  | .setPins inPin outPin => Sys2Proof.Machine.execSetPins inPin outPin s
  | .send dst bus payload => Sys2Proof.Machine.execSend dst bus payload s
  | .sendH dst bus payload header => Sys2Proof.Machine.execSendH dst bus payload header s
  | .sendRepeatedly dst bus payload timing => Sys2Proof.Machine.execSendRepeatedly dst bus payload timing s
  | .sendRepeatedlyH dst bus payload timing header => Sys2Proof.Machine.execSendRepeatedlyH dst bus payload timing header s
  | .tick => Sys2Proof.Machine.execTick s
  | .frameLocal dir dst flags payload crc => Sys2Proof.Machine.execFrameLocal dir dst flags payload crc s
  | .frameShared dir dst flags rbus payload crc => Sys2Proof.Machine.execFrameShared dir dst flags rbus payload crc s
  | .frameLocalSender dir dst flags sid payload crc => Sys2Proof.Machine.execFrameLocalSender dir dst flags sid payload crc s
  | .frameSharedSender dir dst flags rbus sbus sid payload crc => Sys2Proof.Machine.execFrameSharedSender dir dst flags rbus sbus sid payload crc s
  | .ack dir => Sys2Proof.Machine.execAck dir s
  | .nak dir => Sys2Proof.Machine.execNak dir s
  | .respVoid => Sys2Proof.Machine.execRespVoid s
  | .respSlot slot => Sys2Proof.Machine.execRespSlot slot s
  | .respEnqFail => Sys2Proof.Machine.execRespEnqFail s
  | .respOutcome o => Sys2Proof.Machine.execRespOutcome o s
  | .respNoop => Sys2Proof.Machine.execRespNoop s
  | .respId id => Sys2Proof.Machine.execRespId id s
  | .rxevt off len info => Sys2Proof.Machine.execRxevt off len info s
  | .errevt code data => Sys2Proof.Machine.execErrevt code data s

end Sys2Proof.Machine
end

