-- ==== Sys2Proof/WellFormed.lean ====
section
/-! DEFINITION. Which instructions have only operand values the spec gives a meaning to (30_encoding.md R122 and the widths of
the encodings). `maxPackets` is the parameter `MAX_PACKETS`. -/

namespace Sys2Proof

/-- A payload whose length fits the one-byte `len` operand (R114, R115). -/
def payloadFits (payload : List Byte) : Bool := decide (payload.length ≤ 255)

/-- A Boolean operand: 0 or 1 (R122). -/
def isBoolOperand (v : Byte) : Bool := decide (v = 0) || decide (v = 1)

/-- A frame's operands: its total length fits the length byte, and, when the block is the sender, the reserved header bits
are zero and the CRC byte is the CRC-8 of the bytes before it (R93, R94, R97). -/
def frameFits (dir : Direction) (dst h : Byte) (content : List Byte) (crc : Byte) : Bool :=
  decide (content.length + 4 ≤ 255) &&
    (match dir with
     | .received => true
     | .sent => Machine.reservedBitsClear h && decide (crc = Machine.crc8 (Machine.frameBody dst h content)))

/-- Every operand of the instruction has a legal value (R122). -/
def Instr.wellFormed (maxPackets : Nat) : Instr → Bool
  | .beginOp => true
  | .update => true
  | .receive => true
  | .receiveFor _ => true
  | .enqueue _ _ _ hsel header payload =>
    payloadFits payload && (decide (hsel = 0) || (decide (hsel = 1) && Machine.reservedBitsClear header))
  | .reply payload => payloadFits payload
  | .remove slot => decide (slot.toNat < maxPackets)
  | .acquireId => true
  | .getId => true
  | .setId _ => true
  | .setBusId _ => true
  | .setShared v => isBoolOperand v
  | .setRouter v => isBoolOperand v
  | .setSenderInfo v => isBoolOperand v
  | .setAck v => isBoolOperand v
  | .setAutoDelete v => isBoolOperand v
  | .setMode m => decide (m = Config.simplexCode) || decide (m = Config.halfDuplexCode)
  | .setPins _ _ => true
  | .send _ _ payload => payloadFits payload
  | .sendH _ _ payload header => payloadFits payload && Machine.reservedBitsClear header
  | .sendRepeatedly _ _ payload _ => payloadFits payload
  | .sendRepeatedlyH _ _ payload _ header => payloadFits payload && Machine.reservedBitsClear header
  | .tick => true
  | .frameLocal dir dst flags payload crc => frameFits dir dst (Machine.headerOfRow flags 0) payload crc
  | .frameShared dir dst flags rbus payload crc =>
    frameFits dir dst (Machine.headerOfRow flags 1) (rbus.bytes ++ payload) crc
  | .frameLocalSender dir dst flags sid payload crc =>
    frameFits dir dst (Machine.headerOfRow flags 2) ([sid] ++ payload) crc
  | .frameSharedSender dir dst flags rbus sbus sid payload crc =>
    frameFits dir dst (Machine.headerOfRow flags 3) (rbus.bytes ++ sbus.bytes ++ [sid] ++ payload) crc
  | .ack _ => true
  | .nak _ => true
  | .respVoid => true
  | .respSlot slot => decide (slot.toNat < maxPackets)
  | .respEnqFail => true
  | .respOutcome _ => true
  | .respNoop => true
  | .respId _ => true
  | .rxevt _ _ _ => true
  | .errevt code _ => decide (101 ≤ code.toNat) && decide (code.toNat ≤ 105)

end Sys2Proof
end

