-- ==== Sys2Proof/Decode.lean ====
section
/-! DEFINITION. The decoder of every stream, total on any bytes and rejecting by name, and the encoder (30_encoding.md). -/

namespace Sys2Proof

/-! ### Byte order (20_memory.md R73) -/

/-- A 32-bit number from its bytes, least significant byte first (R73). -/
def word32 (b0 b1 b2 b3 : Byte) : Word := b3 ++ b2 ++ b1 ++ b0

/-- The bytes of a 32-bit number, least significant byte first (R73). -/
def word32Bytes (v : Word) : List Byte :=
  [v.extractLsb' 0 8, v.extractLsb' 8 8, v.extractLsb' 16 8, v.extractLsb' 24 8]

/-- A 16-bit number from its bytes, least significant byte first (R73). -/
def half16 (b0 b1 : Byte) : Half := b1 ++ b0

/-- The bytes of a 16-bit number, least significant byte first (R73). -/
def half16Bytes (v : Half) : List Byte := [v.extractLsb' 0 8, v.extractLsb' 8 8]

/-! ### Command packets (R111 to R117) -/

/-- A command without operands (R112). -/
def operandsNone (i : Instr) : List Byte → Except DecodeError Instr
  | [] => .ok i
  | _ => .error .badLength

/-- A command with one operand byte (R116, R117). -/
def operandsByte (f : Byte → Instr) : List Byte → Except DecodeError Instr
  | [a] => .ok (f a)
  | _ => .error .badLength

/-- A command with two operand bytes (R117). -/
def operandsTwoBytes (f : Byte → Byte → Instr) : List Byte → Except DecodeError Instr
  | [a, b] => .ok (f a b)
  | _ => .error .badLength

/-- A command with four operand bytes (R113, R117). -/
def operandsFourBytes (f : Byte → Byte → Byte → Byte → Instr) : List Byte → Except DecodeError Instr
  | [a, b, c, d] => .ok (f a b c d)
  | _ => .error .badLength

/-- The operands of `ENQUEUE`: twelve bytes, the last of them `len`, then `len` payload bytes (R114). -/
def operandsEnqueue : List Byte → Except DecodeError Instr
  | dst :: r0 :: r1 :: r2 :: r3 :: t0 :: t1 :: t2 :: t3 :: hsel :: header :: len :: payload =>
    if payload.length = len.toNat then
      .ok (.enqueue dst ⟨r0, r1, r2, r3⟩ (word32 t0 t1 t2 t3) hsel header payload)
    else .error .badLength
  | _ => .error .badLength

/-- The operands of `REPLY`: `len`, then `len` payload bytes (R115). -/
def operandsReply : List Byte → Except DecodeError Instr
  | len :: payload => if payload.length = len.toNat then .ok (.reply payload) else .error .badLength
  | _ => .error .badLength

/-- The command a packet of the command stream stands for; a reserved opcode or a wrong length is invalid (R110, R111,
R121, R124). Reserved operand values (R122) are left to the meanings, which refuse them. -/
def decodeCommand : List Byte → Except DecodeError Instr
  | [] => .error .empty
  | op :: args =>
    match op.toNat with
    | 0x01 => operandsNone .beginOp args
    | 0x02 => operandsNone .update args
    | 0x03 => operandsNone .receive args
    | 0x04 => operandsFourBytes (fun a b c d => .receiveFor (word32 a b c d)) args
    | 0x05 => operandsEnqueue args
    | 0x06 => operandsReply args
    | 0x07 => operandsByte .remove args
    | 0x08 => operandsNone .acquireId args
    | 0x09 => operandsNone .getId args
    | 0x10 => operandsByte .setId args
    | 0x11 => operandsFourBytes (fun a b c d => .setBusId ⟨a, b, c, d⟩) args
    | 0x12 => operandsByte .setShared args
    | 0x13 => operandsByte .setRouter args
    | 0x14 => operandsByte .setSenderInfo args
    | 0x15 => operandsByte .setAck args
    | 0x16 => operandsByte .setAutoDelete args
    | 0x17 => operandsByte .setMode args
    | 0x18 => operandsTwoBytes .setPins args
    | _ => .error (.reservedOpcode op)

/-- The length the opcode, and for `ENQUEUE` and `REPLY` the `len` operand, fix for a command packet (R111, R124); none for a
reserved opcode or where the packet ends before its `len`. -/
def commandLength : List Byte → Option Nat
  | [] => none
  | op :: args =>
    match op.toNat with
    | 0x01 | 0x02 | 0x03 | 0x08 | 0x09 => some 1
    | 0x07 | 0x10 | 0x12 | 0x13 | 0x14 | 0x15 | 0x16 | 0x17 => some 2
    | 0x18 => some 3
    | 0x04 | 0x11 => some 5
    | 0x05 => (args[11]?).map fun len => 13 + len.toNat
    | 0x06 => (args[0]?).map fun len => 2 + len.toNat
    | _ => none

/-! ### Frames and response symbols (R90, R95, R98, R99) -/

/-- A non-empty byte sequence as all bytes but the last, and the last. -/
def splitLast : List Byte → Option (List Byte × Byte)
  | [] => none
  | [a] => some ([], a)
  | a :: b :: l => (splitLast (b :: l)).map fun p => (a :: p.1, p.2)

/-- The frame row of the bytes after the header byte: prefix, payload and CRC byte, laid out by the two low header bits
(R95). -/
def decodeFrameRest (dir : Direction) (dst h : Byte) (rest : List Byte) : Except DecodeError Instr :=
  match splitLast rest with
  | none => .error .badLength
  | some (body, crc) =>
    match (h.extractLsb' 0 2).toNat, body with
    | 0, payload => .ok (.frameLocal dir dst (h.extractLsb' 2 6) payload crc)
    | 1, r0 :: r1 :: r2 :: r3 :: payload =>
      .ok (.frameShared dir dst (h.extractLsb' 2 6) ⟨r0, r1, r2, r3⟩ payload crc)
    | 2, sid :: payload => .ok (.frameLocalSender dir dst (h.extractLsb' 2 6) sid payload crc)
    | 3, r0 :: r1 :: r2 :: r3 :: s0 :: s1 :: s2 :: s3 :: sid :: payload =>
      .ok (.frameSharedSender dir dst (h.extractLsb' 2 6) ⟨r0, r1, r2, r3⟩ ⟨s0, s1, s2, s3⟩ sid payload crc)
    | _, _ => .error .badLength

/-- The frame row that a byte sequence is laid out as: byte 1 gives the length, byte 2 the layout (R90, R95, R98). One that is
laid out as none of the four rows (a length byte that disagrees, too short for its header) is no row, DESIGN CHOICE (log 25);
no step depends on it, because the receive engine reads the bytes themselves and gives each sequence an outcome (R123,
40_codec.md R138). -/
def decodeFrame (dir : Direction) : List Byte → Except DecodeError Instr
  | dst :: len :: h :: rest =>
    if len.toNat = rest.length + 3 then decodeFrameRest dir dst h rest else .error .badLength
  | _ => .error .badLength

/-- The row of a response symbol (R99). Any other byte is no row, DESIGN CHOICE (log 25); to the transmit engine it is a garbled
symbol (R123, 42_transmit.md R187). -/
def decodeSymbol (dir : Direction) : List Byte → Except DecodeError Instr
  | [b] =>
    if b = Config.ackSymbol then .ok (.ack dir)
    else if b = Config.nakSymbol then .ok (.nak dir)
    else .error (.reservedOpcode b)
  | _ => .error .badLength

/-! ### Response and event records (R118, R119, R120) -/

/-- A record whose value must be the one its kind fixes (R118). -/
def fixedValue (i : Instr) (want v : Half) : Except DecodeError Instr :=
  if v = want then .ok i else .error .badValue

/-- A record whose value is one byte (R118). -/
def byteValue (f : Byte → Instr) (v0 v1 : Byte) : Except DecodeError Instr :=
  if v1 = 0 then .ok (f v0) else .error .badValue

/-- The response record of three bytes (R118). -/
def decodeResponse : List Byte → Except DecodeError Instr
  | [kind, v0, v1] =>
    match kind.toNat with
    | 0x00 => fixedValue .respVoid 0 (half16 v0 v1)
    | 0x01 => byteValue .respSlot v0 v1
    | 0x02 => fixedValue .respEnqFail Config.failCode (half16 v0 v1)
    | 0x03 =>
      match Machine.outcomeOfCode (half16 v0 v1) with
      | some o => .ok (.respOutcome o)
      | none => .error .badValue
    | 0x04 => fixedValue .respNoop 0 (half16 v0 v1)
    | 0x05 => byteValue .respId v0 v1
    | _ => .error (.reservedOpcode kind)
  | _ => .error .badLength

/-- The event record: 14 bytes with tag `0xE0` or 4 bytes with tag `0xE1` (R119, R120). -/
def decodeEvent : List Byte → Except DecodeError Instr
  | [] => .error .empty
  | tag :: args =>
    match tag.toNat, args with
    | 0xE0, [off, len, header, rid, r0, r1, r2, r3, s0, s1, s2, s3, sid] =>
      .ok (.rxevt off len ⟨rid, header, ⟨r0, r1, r2, r3⟩, ⟨s0, s1, s2, s3⟩, sid⟩)
    | 0xE1, [code, d0, d1] => .ok (.errevt code (half16 d0 d1))
    | 0xE0, _ => .error .badLength
    | 0xE1, _ => .error .badLength
    | _, _ => .error (.reservedOpcode tag)

/-- The instruction a packet stands for in its stream. `step` reads command packets only; the other streams are the wire's and
the block's own outputs (log 13, log 14, log 25). -/
def decode (p : Packet) : Except DecodeError Instr :=
  match p.space with
  | .command => decodeCommand p.bytes
  | .frame dir => decodeFrame dir p.bytes
  | .symbol dir => decodeSymbol dir p.bytes
  | .response => decodeResponse p.bytes
  | .event => decodeEvent p.bytes

/-! ### The encoder -/

/-- A payload operand with its `len` byte before it (R114, R115). -/
def lenPayload (payload : List Byte) : List Byte := BitVec.ofNat 8 payload.length :: payload

/-- A command packet. -/
def commandPacket (bytes : List Byte) : Packet := ⟨.command, bytes⟩

/-- The packet of an `ENQUEUE` (R114). -/
def enqueuePacket (dst : Byte) (rbus : BusId) (timing : Word) (hsel header : Byte) (payload : List Byte) : Packet :=
  commandPacket (0x05 :: dst :: (rbus.bytes ++ word32Bytes timing ++ [hsel, header] ++ lenPayload payload))

/-- The packet of a frame with the CRC byte it carries (R90). -/
def framePacket (dir : Direction) (dst h : Byte) (content : List Byte) (crc : Byte) : Packet :=
  ⟨.frame dir, Machine.frameBody dst h content ++ [crc]⟩

/-- A response record (R118). -/
def responsePacket (kind : Byte) (value : Half) : Packet := ⟨.response, kind :: half16Bytes value⟩

/-- `encode i`: the words of an instruction and the stream they stand in. A pseudo-command has the words of its expansion,
with the header operand `auto` encoded as 0 (R125, R126). -/
def encode : Instr → Packet
  | .beginOp => commandPacket [0x01]
  | .update => commandPacket [0x02]
  | .receive => commandPacket [0x03]
  | .receiveFor duration => commandPacket (0x04 :: word32Bytes duration)
  | .enqueue dst rbus timing hsel header payload => enqueuePacket dst rbus timing hsel header payload
  | .reply payload => commandPacket (0x06 :: lenPayload payload)
  | .remove slot => commandPacket [0x07, slot]
  | .acquireId => commandPacket [0x08]
  | .getId => commandPacket [0x09]
  | .setId id => commandPacket [0x10, id]
  | .setBusId bus => commandPacket (0x11 :: bus.bytes)
  | .setShared v => commandPacket [0x12, v]
  | .setRouter v => commandPacket [0x13, v]
  | .setSenderInfo v => commandPacket [0x14, v]
  | .setAck v => commandPacket [0x15, v]
  | .setAutoDelete v => commandPacket [0x16, v]
  | .setMode m => commandPacket [0x17, m]
  | .setPins inPin outPin => commandPacket [0x18, inPin, outPin]
  | .send dst bus payload => enqueuePacket dst bus 0 0 0 payload
  | .sendH dst bus payload header => enqueuePacket dst bus 0 1 header payload
  | .sendRepeatedly dst bus payload timing => enqueuePacket dst bus timing 0 0 payload
  | .sendRepeatedlyH dst bus payload timing header => enqueuePacket dst bus timing 1 header payload
  | .tick => commandPacket [0x02]
  | .frameLocal dir dst flags payload crc => framePacket dir dst (Machine.headerOfRow flags 0) payload crc
  | .frameShared dir dst flags rbus payload crc =>
    framePacket dir dst (Machine.headerOfRow flags 1) (rbus.bytes ++ payload) crc
  | .frameLocalSender dir dst flags sid payload crc =>
    framePacket dir dst (Machine.headerOfRow flags 2) ([sid] ++ payload) crc
  | .frameSharedSender dir dst flags rbus sbus sid payload crc =>
    framePacket dir dst (Machine.headerOfRow flags 3) (rbus.bytes ++ sbus.bytes ++ [sid] ++ payload) crc
  | .ack dir => ⟨.symbol dir, [Config.ackSymbol]⟩
  | .nak dir => ⟨.symbol dir, [Config.nakSymbol]⟩
  | .respVoid => responsePacket 0x00 0
  | .respSlot slot => responsePacket 0x01 (slot.setWidth 16)
  | .respEnqFail => responsePacket 0x02 Config.failCode
  | .respOutcome o => responsePacket 0x03 (Machine.outcomeCode o)
  | .respNoop => responsePacket 0x04 0
  | .respId id => responsePacket 0x05 (id.setWidth 16)
  | .rxevt off len info =>
    ⟨.event, [0xE0, off, len, info.header, info.receiverId] ++ info.receiverBusId.bytes ++ info.senderBusId.bytes ++
      [info.senderId]⟩
  | .errevt code data => ⟨.event, 0xE1 :: code :: half16Bytes data⟩

/-- The core instruction a pseudo-command is a spelling of; every other instruction is its own expansion (R126). -/
def Instr.expand : Instr → Instr
  | .send dst bus payload => .enqueue dst bus 0 0 0 payload
  | .sendH dst bus payload header => .enqueue dst bus 0 1 header payload
  | .sendRepeatedly dst bus payload timing => .enqueue dst bus timing 0 0 payload
  | .sendRepeatedlyH dst bus payload timing header => .enqueue dst bus timing 1 header payload
  | .tick => .update
  | i => i

/-! ### Table words -/

/-- The bytes of a table word, byte 0 the least significant, followed by zeros up to the longest instruction (ENQUEUE with
255 payload bytes). -/
def tableBytes (nbits w : Nat) : List Byte :=
  (List.range (nbits / 8)).map (fun k => BitVec.ofNat 8 (w / 2 ^ (8 * k))) ++ List.replicate 268 0

/-- The packet a table word stands for. The table gives no stream with a word and its streams share first bytes, so the word is
read as a command packet where its first byte is an opcode; otherwise as an event record (`0xE0`, `0xE1`) or a response
record (`0x00`); otherwise it stays a command packet, which the decoder refuses (DESIGN CHOICE, log 15). -/
def tablePacket (nbits w : Nat) : Packet :=
  let bytes := tableBytes nbits w
  match commandLength bytes with
  | some n => ⟨.command, bytes.take n⟩
  | none =>
    match (bytes.headD 0).toNat with
    | 0xE0 => ⟨.event, bytes.take 14⟩
    | 0xE1 => ⟨.event, bytes.take 4⟩
    | 0x00 => ⟨.response, bytes.take 3⟩
    | _ => ⟨.command, bytes.take 1⟩

/-- The instruction the decoder reads from a table word; none where it refuses. -/
def decodeTableWord (nbits w : Nat) : Option Instr :=
  match decode (tablePacket nbits w) with
  | .ok i => some i
  | .error _ => none

end Sys2Proof
end

