-- ==== Sys2Proof/Machine/Fetch.lean ====
section
/-! DEFINITION. Where the next command comes from: the host's command stream (20_memory.md R65), and the next turn of a
command that takes more than one step (10_state.md R47, log 1). -/

namespace Sys2Proof.Machine

/-- The next packet of the command stream, and the state without it; none where the host has issued nothing (R65). -/
def fetch (s : State) : Option (List Byte × State) :=
  match s.inbox with
  | [] => none
  | bytes :: rest => some (bytes, { s with inbox := rest })

/-- The next turn of the command that runs. -/
def resume (s : State) : State :=
  match s.running with
  | .idle => s
  | .receiveFor t0 duration => receiveForTurn t0 duration s
  | .acquireScan t0 k => acquireScanTurn t0 k s
  | .acquireProbe t0 k slot => acquireProbeTurn t0 k slot s

/-- `s` with one packet first in the command stream and nothing running. -/
def placeCommand (bytes : List Byte) (s : State) : State := { s with running := .idle, inbox := bytes :: s.inbox }

end Sys2Proof.Machine
end

