-- ==== Sys2Proof/Machine/Step.lean ====
section
/-! DEFINITION. One step of the machine (00_scope.md R11), and where a table word is placed to be run next. -/

namespace Sys2Proof.Machine

/-- One step: the next turn of the command that runs; otherwise the next packet of the command stream, decoded as a command and
run; with nothing issued the block is idle and keeps its state (60_exceptions.md R288, R305). The host issues commands and
nothing else: no frame, symbol, record or micro-operation (20_memory.md R65, 30_encoding.md R127, 70_reset_and_hazards.md
R320). An invalid command packet is refused (30_encoding.md R121). -/
def step (s : State) : Host.Outcome State Fault Refusal :=
  if s.running = .idle then
    match fetch s with
    | none => .next s
    | some (bytes, s1) =>
      match decodeCommand bytes with
      | .ok i => exec i s1
      | .error why => .refused (.invalidPacket why)
  else .next (resume s)

/-- `s` with the bytes of a table word first in its command stream and no command running (log 2). A word of a row that is no
command is no command packet either, and is refused there (30_encoding.md R121, R127; log 15). -/
def State.withFetchWord (s : State) (nbits w : Nat) : State := placeCommand (tablePacket nbits w).bytes s

end Sys2Proof.Machine
end

