-- ==== Sys2Proof/Safety.lean ====
section
/-! DEFINITION. What holds of the block's state between steps, in the terms the statements use: the invariants of
10_state.md R42, the ranges of the parameters (00_scope.md R6), and the canonical form of the receive buffer. -/

namespace Sys2Proof.Machine

/-- A queue slot that the block's own operations can produce (10_state.md R42): a free slot has its one value; the state `ACK`
is never seen (41_queue_scheduler.md R172); the content is as long as `length` says, at least the prefix its header needs, and
the frame fits; a header to transmit has its reserved bits clear; a repeating slot has at most `MAX_ATTEMPTS` attempts. -/
abbrev Slot.ok (packetMaxLength : Nat) (p : Slot) : Prop :=
  (p.state = .free → p = Slot.empty) ∧
    p.state ≠ .ack ∧
    p.content.length = p.length.toNat ∧
    (p.state ≠ .free → prefixLen p.header ≤ p.length.toNat ∧ p.length.toNat + 4 < packetMaxLength) ∧
    reservedBitsClear p.header = true ∧
    (p.timing ≠ 0 → p.attempts.toNat ≤ Config.maxAttempts)

/-- The parameters of the state are in their ranges (00_scope.md R6). -/
abbrev State.paramsLegal (s : State) : Prop :=
  1 ≤ s.queue.length ∧ s.queue.length ≤ 255 ∧ 6 ≤ s.packetMaxLength ∧ s.packetMaxLength ≤ 255

/-- The receive buffer is in canonical form and inside `0 .. PACKET_MAX_LENGTH − 1` (10_state.md R44, 20_memory.md R62). -/
abbrev State.rxbufOk (s : State) : Prop := s.rxbuf.wf ∧ ∀ c ∈ s.rxbuf, c.1 < s.packetMaxLength

/-- The transient state of a running command is in range: candidate ids 1 to 254 (255 when they are used up), and a probe slot
that exists (45_id_acquisition.md R270). -/
def Running.inRange (slots : Nat) : Running → Bool
  | .idle => true
  | .receiveFor _ _ => true
  | .acquireScan _ k => decide (1 ≤ k) && decide (k ≤ 255)
  | .acquireProbe _ k slot => decide (1 ≤ k) && decide (k ≤ 254) && decide (slot < slots)

/-- The invariant of the block between steps. -/
abbrev State.inv (s : State) : Prop :=
  s.paramsLegal ∧ (∀ p ∈ s.queue, Slot.ok s.packetMaxLength p) ∧ s.rxbufOk ∧ Running.inRange s.queue.length s.running = true

/-- The block's own state: everything but the trace and the outside. What one operation leaves unchanged is said with it. -/
def State.own (s : State) : State := { s with trace := [], env := Env.start }

/-- Nothing of what has happened is lost: the trace is extended, and the outside clock has not gone back (20_memory.md R71,
R75). -/
abbrev State.advances (s t : State) : Prop := s.trace <+: t.trace ∧ s.env.time ≤ t.env.time

/-- Slot `i` is the free slot of lowest index (41_queue_scheduler.md R153). -/
abbrev LowestFree (s : State) (i : Nat) : Prop :=
  i < s.queue.length ∧ (slotAt s i).state = .free ∧ ∀ j, j < i → (slotAt s j).state ≠ .free

/-- The header a command with operands `hsel` and `header` uses: chosen from the configuration (`hsel = 0`, whatever `header`
is) or as given with bits 7..3 zero (`hsel = 1`) (R151, 30_encoding.md R114, R122). -/
abbrev HeaderUsed (s : State) (hsel header h : Byte) : Prop :=
  (hsel = 0 ∧ h = headerOfBits s.shared s.senderInfoEn s.acknowledge) ∨ (hsel = 1 ∧ header >>> 3 = 0 ∧ h = header)

/-- The state after an enqueue that took slot `i`, its response included (41_queue_scheduler.md R150, R154, R155): the slot,
one clock read, the response `SLOT(i)`, and nothing else. -/
def State.enqueued (s : State) (i : Nat) (dst : Byte) (rbus : BusId) (timing : Word) (h : Byte) (payload : List Byte) : State :=
  { s with
    queue := s.queue.set i
      { state := .toBeSent, destination := dst, header := h, content := framePrefix h rbus s.busId s.deviceId ++ payload,
        length := BitVec.ofNat 8 (prefixLen h + payload.length), registration := clockValue (passTime s.env), attempts := 0,
        timing := timing }
    env := passTime s.env
    trace := s.trace ++ [.now (clockValue (passTime s.env)), .response (.slot (BitVec.ofNat 8 i))] }

/-- The strategy's next answers to `ReceiveByte` are the bytes of a frame, in index order; `rest` comes after them. -/
abbrev Delivers (s : State) (frame : List Byte) (rest : List (Option Byte)) : Prop :=
  s.env.byteIn = frame.map some ++ rest

/-- The three receive filters let a frame with this receiver id, header and receiver bus id through (43_receive.md R203, R205,
R206). -/
abbrev PassesFilters (s : State) (dst h : Byte) (rbus : BusId) : Prop :=
  (dst = s.deviceId ∨ dst = 0 ∨ s.router = true) ∧ (modeBit h = s.shared ∨ s.router = true) ∧
    (s.shared = true → modeBit h = true → s.router = false → rbus = s.busId)

/-- A response symbol is due to a frame with these fields (43_receive.md R212). -/
abbrev ResponseDue (s : State) (dst h : Byte) (rbus : BusId) : Prop :=
  ackRequestBit h = true ∧ dst ≠ 0 ∧ s.commMode ≠ .simplex ∧ (s.shared = false ∨ (modeBit h = true ∧ rbus = s.busId))

/-- The metadata of a frame with these fields (40_codec.md R137): a field the header does not carry is zero. -/
def frameInfo (dst h : Byte) (rbus sbus : BusId) (sid : Byte) : PacketInfo :=
  { receiverId := dst
    header := h
    receiverBusId := if modeBit h = true then rbus else BusId.zero
    senderBusId := if modeBit h = true ∧ senderInfoBit h = true then sbus else BusId.zero
    senderId := if senderInfoBit h = true then sid else 0 }

/-- The bytes the strategy delivered in a trace, in order, failed reads left out (20_memory.md R66, R75). -/
def received (tr : List Entry) : List Byte :=
  tr.filterMap fun e => match e with
    | .receiveByte v => v
    | _ => none

/-- The responses in a trace, in order (20_memory.md R65). -/
def responses (tr : List Entry) : List Response :=
  tr.filterMap fun e => match e with
    | .response r => some r
    | _ => none

/-- The events in a trace, in order (60_exceptions.md R292). -/
def events (tr : List Entry) : List Entry :=
  tr.filter fun e => match e with
    | .errevt _ _ => true
    | .rxevt _ _ _ => true
    | _ => false

end Sys2Proof.Machine
end

