-- ==== Sys2Proof/Certificates/Slice0/Obligations.lean ====
section
/-! DEFINITION. The statements for the provers. -/

open Sys2Proof Sys2Proof.Machine

/-! ### Encodings (30_encoding.md) -/

/-- Decoding the words of a well-formed instruction gives it back; a pseudo-command's words are those of its expansion (R110
to R120, R90, R126). -/
def Obligations.DecodeEncodeRoundTrip : Prop :=
  ∀ (maxPackets : Nat) (i : Instr), i.wellFormed maxPackets = true → decode (encode i) = .ok i.expand

/-- Every packet that decodes is the encoding of what it decodes to: no bit of any stream's encoding is dropped (R111 to R120,
R90, R98, R99). -/
def Obligations.EncodeDecodeRoundTrip : Prop :=
  ∀ (p : Packet) (i : Instr), decode p = .ok i → encode i = p

/-- Words written out from the spec's encodings decode to the instructions they stand for (R113, R114, R117, R95, R118, R120;
programs P1 and P2 of 95_test_vectors.md). -/
def Obligations.SpecWordsDecode : Prop :=
  decode ⟨.command, [0x05, 0x0C, 0, 0, 0, 0, 0, 0, 0, 0, 0, 0, 0x01, 0x40]⟩ =
      .ok (.enqueue 12 ⟨0, 0, 0, 0⟩ 0 0 0 [0x40]) ∧
    decode ⟨.command, [0x04, 0xE8, 0x03, 0x00, 0x00]⟩ = .ok (.receiveFor 1000) ∧
    decode ⟨.command, [0x11, 0x7F, 0x00, 0x00, 0x01]⟩ = .ok (.setBusId ⟨127, 0, 0, 1⟩) ∧
    decode ⟨.frame .received, [0x0C, 0x05, 0x04, 0x40, 0x5A]⟩ = .ok (.frameLocal .received 12 1 [0x40] 0x5A) ∧
    decode ⟨.response, [0x03, 0x9A, 0x02]⟩ = .ok (.respOutcome .busy) ∧
    decode ⟨.event, [0xE1, 0x68, 0x32, 0x00]⟩ = .ok (.errevt 104 50)

/-- Reserved opcodes have no packet length, and a command packet whose length is not the one its opcode and `len` fix is
refused as invalid (R121). -/
def Obligations.InvalidCommandPacketsRefused : Prop :=
  (∀ (op : Byte) (args : List Byte),
      (op.toNat = 0 ∨ (0x0A ≤ op.toNat ∧ op.toNat ≤ 0x0F) ∨ 0x19 ≤ op.toNat) →
      commandLength (op :: args) = none ∧ decodeCommand (op :: args) = .error (.reservedOpcode op)) ∧
    ∀ (s : State) (bytes : List Byte) (rest : List (List Byte)),
      s.running = .idle → s.inbox = bytes :: rest → commandLength bytes ≠ some bytes.length →
      ∃ why, step s = .refused (.invalidPacket why)

/-- The reserved operand values (R122): each is refused, and with `hsel = 0` the header byte is ignored, whatever its value. -/
def Obligations.ReservedOperandsRefused : Prop :=
  ∀ s : State,
    (∀ v : Byte, v ≠ 0 → v ≠ 1 →
      exec (.setShared v) s = .refused .reservedOperand ∧ exec (.setRouter v) s = .refused .reservedOperand ∧
        exec (.setSenderInfo v) s = .refused .reservedOperand ∧ exec (.setAck v) s = .refused .reservedOperand ∧
        exec (.setAutoDelete v) s = .refused .reservedOperand) ∧
    (∀ (dst : Byte) (rbus : BusId) (timing : Word) (hsel header : Byte) (payload : List Byte), hsel ≠ 0 → hsel ≠ 1 →
      exec (.enqueue dst rbus timing hsel header payload) s = .refused .reservedOperand) ∧
    (∀ m : Byte, m ≠ 150 → m ≠ 151 → exec (.setMode m) s = .refused .reservedOperand) ∧
    (∀ slot : Byte, s.queue.length ≤ slot.toNat → exec (.remove slot) s = .refused .reservedOperand) ∧
    (∀ (dst : Byte) (rbus : BusId) (timing : Word) (header : Byte) (payload : List Byte), header >>> 3 ≠ 0 →
      exec (.enqueue dst rbus timing 1 header payload) s = .refused .reservedHeaderBits) ∧
    (∀ (dst : Byte) (rbus : BusId) (timing : Word) (header header' : Byte) (payload : List Byte),
      exec (.enqueue dst rbus timing 0 header payload) s = exec (.enqueue dst rbus timing 0 header' payload) s)

/-- The other forms that a meaning stops on by name: explicit headers with a bit of 7..3 set, in the pseudo-commands and in sent
frames (R94, R122); a slot record out of range (R118); an error record whose code is none of the five (R104). That frame and
record rows are instructions of their own is the model's choice (log 13, log 14). -/
def Obligations.ReservedRowFormsRefused : Prop :=
  ∀ (s : State) (dst sid crc h slot code : Byte) (rbus sbus : BusId) (payload : List Byte) (timing : Word) (flags : BitVec 6)
    (data : Half),
    (h >>> 3 ≠ 0 →
      exec (.sendH dst rbus payload h) s = .refused .reservedHeaderBits ∧
        exec (.sendRepeatedlyH dst rbus payload timing h) s = .refused .reservedHeaderBits) ∧
    (flags >>> 1 ≠ 0 →
      exec (.frameLocal .sent dst flags payload crc) s = .refused .reservedHeaderBits ∧
        exec (.frameShared .sent dst flags rbus payload crc) s = .refused .reservedHeaderBits ∧
        exec (.frameLocalSender .sent dst flags sid payload crc) s = .refused .reservedHeaderBits ∧
        exec (.frameSharedSender .sent dst flags rbus sbus sid payload crc) s = .refused .reservedHeaderBits) ∧
    (s.queue.length ≤ slot.toNat → exec (.respSlot slot) s = .refused .reservedOperand) ∧
    ((code.toNat < 101 ∨ 105 < code.toNat) → exec (.errevt code data) s = .refused .reservedOperand)

/-- Each pseudo-command does what its expansion does, and has its words; a repeated send with timing 0 is a one-shot send
(R126). -/
def Obligations.PseudoCommandsAreTheirExpansion : Prop :=
  ∀ (s : State) (dst : Byte) (bus : BusId) (payload : List Byte) (timing : Word) (header : Byte),
    exec (.send dst bus payload) s = exec (.enqueue dst bus 0 0 0 payload) s ∧
      exec (.sendH dst bus payload header) s = exec (.enqueue dst bus 0 1 header payload) s ∧
      exec (.sendRepeatedly dst bus payload timing) s = exec (.enqueue dst bus timing 0 0 payload) s ∧
      exec (.sendRepeatedlyH dst bus payload timing header) s = exec (.enqueue dst bus timing 1 header payload) s ∧
      exec .tick s = exec .update s ∧
      exec (.sendRepeatedly dst bus payload 0) s = exec (.send dst bus payload) s ∧
      encode (.send dst bus payload) = encode (.enqueue dst bus 0 0 0 payload) ∧
      encode (.sendH dst bus payload header) = encode (.enqueue dst bus 0 1 header payload) ∧
      encode (.sendRepeatedly dst bus payload timing) = encode (.enqueue dst bus timing 0 0 payload) ∧
      encode (.sendRepeatedlyH dst bus payload timing header) = encode (.enqueue dst bus timing 1 header payload) ∧
      encode .tick = encode .update

/-! ### Steps -/

/-- Between commands, a command packet that decodes is taken off the stream and its instruction run (00_scope.md R11,
20_memory.md R65); what it decodes to is a command, never a frame, symbol or record (30_encoding.md R127). The one packet per
step and the two loops that take a step a turn are the model's choice (log 1, log 2). -/
def Obligations.StepRunsTheDecodedInstruction : Prop :=
  ∀ (s : State) (bytes : List Byte) (rest : List (List Byte)) (i : Instr),
    s.running = .idle → s.inbox = bytes :: rest → decode ⟨.command, bytes⟩ = .ok i →
      step s = exec i { s with inbox := rest } ∧ encode i = ⟨.command, bytes⟩

/-- Nothing happens between commands (60_exceptions.md R288), and no command is taken while one runs (00_scope.md R11,
20_memory.md R77). -/
def Obligations.NoCommandTakenWhileOneRuns : Prop :=
  (∀ s : State, s.running = .idle → s.inbox = [] → step s = .next s) ∧
    ∀ s : State, s.running ≠ .idle → ∃ t, step s = .next t ∧ t = resume s ∧ t.inbox = s.inbox

/-! ### Codec (40_codec.md) -/

/-- The check accepts a frame exactly when its last byte is the CRC of the rest (R132, with its converse). -/
def Obligations.CrcResidueIsZeroExactly : Prop :=
  ∀ (s : List Byte) (c : Byte), crc8 (s ++ [c]) = 0 ↔ c = crc8 s

/-- The header overhead is 3, 7, 4 or 12 by the two low header bits, whatever the others are (R133). -/
def Obligations.OverheadByLowHeaderBits : Prop :=
  ∀ h : Byte,
    (h.extractLsb' 0 2 = 0 → overhead h = 3) ∧ (h.extractLsb' 0 2 = 1 → overhead h = 7) ∧
      (h.extractLsb' 0 2 = 2 → overhead h = 4) ∧ (h.extractLsb' 0 2 = 3 → overhead h = 12) ∧
      prefixLen h = overhead h - 3

/-- Round trip of the codec (R139): decoding an encoded frame reports what the encoder was given. -/
def Obligations.FrameDecodesToWhatWasEncoded : Prop :=
  ∀ (dst h : Byte) (rbus sbus : BusId) (sid : Byte) (payload : List Byte) (packetMaxLength : Nat),
    overhead h + payload.length + 1 < packetMaxLength → packetMaxLength ≤ 255 →
      (encodeFrame dst h rbus sbus sid payload).length = overhead h + payload.length + 1 ∧
        ((encodeFrame dst h rbus sbus sid payload).getD 1 0).toNat = overhead h + payload.length + 1 ∧
        decodeInfo (encodeFrame dst h rbus sbus sid payload) = frameInfo dst h rbus sbus sid ∧
        decodePayload (encodeFrame dst h rbus sbus sid payload) = payload

/-! ### The outbound queue (41_queue_scheduler.md) -/

/-- The header the controller chooses: `MODE` iff shared, `SENDER_INFO` iff configured, `ACK_REQUEST` iff acknowledge enabled,
bits 7..3 zero; an explicit header is used as given (R151). -/
def Obligations.ChosenHeaderFollowsConfiguration : Prop :=
  ∀ (s : State) (h : Byte),
    chooseHeader (some h) s = h ∧
      modeBit (chooseHeader none s) = s.shared ∧ senderInfoBit (chooseHeader none s) = s.senderInfoEn ∧
      ackRequestBit (chooseHeader none s) = s.acknowledge ∧ chooseHeader none s >>> 3 = 0

/-- An enqueue that fits, with a free slot, takes the free slot of lowest index, reads the clock once, writes that slot whole
and nothing else, and answers its index (R150, R151, R153, R154, R155). -/
def Obligations.EnqueueTakesTheLowestFreeSlot : Prop :=
  ∀ (s : State) (dst : Byte) (rbus : BusId) (timing : Word) (hsel header h : Byte) (payload : List Byte) (i : Nat),
    HeaderUsed s hsel header h → overhead h + payload.length + 1 < s.packetMaxLength → LowestFree s i →
      exec (.enqueue dst rbus timing hsel header payload) s = .next (s.enqueued i dst rbus timing h payload)

/-- The same for the four pseudo-commands that are spellings of an enqueue (R126, R150). -/
def Obligations.SendVariantsTakeTheLowestFreeSlot : Prop :=
  ∀ (s : State) (dst : Byte) (bus : BusId) (payload : List Byte) (timing : Word) (header : Byte) (i : Nat),
    LowestFree s i →
      (overhead (headerOfBits s.shared s.senderInfoEn s.acknowledge) + payload.length + 1 < s.packetMaxLength →
        exec (.send dst bus payload) s =
            .next (s.enqueued i dst bus 0 (headerOfBits s.shared s.senderInfoEn s.acknowledge) payload) ∧
          exec (.sendRepeatedly dst bus payload timing) s =
            .next (s.enqueued i dst bus timing (headerOfBits s.shared s.senderInfoEn s.acknowledge) payload)) ∧
      (header >>> 3 = 0 → overhead header + payload.length + 1 < s.packetMaxLength →
        exec (.sendH dst bus payload header) s = .next (s.enqueued i dst bus 0 header payload) ∧
          exec (.sendRepeatedlyH dst bus payload timing header) s = .next (s.enqueued i dst bus timing header payload))

/-- An enqueue whose frame would be too long raises `CONTENT_TOO_LONG` with that length and answers `ENQ_FAIL`; no slot is
occupied, no clock read is made, whatever the state of the queue (R152, R156, 60_exceptions.md R284). -/
def Obligations.EnqueueTooLongFails : Prop :=
  ∀ (s : State) (dst : Byte) (rbus : BusId) (timing : Word) (hsel header h : Byte) (payload : List Byte),
    HeaderUsed s hsel header h → s.packetMaxLength ≤ overhead h + payload.length + 1 →
      exec (.enqueue dst rbus timing hsel header payload) s =
        .next { s with
          trace := s.trace ++
            [.errevt .contentTooLong (BitVec.ofNat 16 (overhead h + payload.length + 1)), .response .enqFail] }

/-- An enqueue that fits, with every slot pending, raises `PACKETS_BUFFER_FULL` with the capacity and answers `ENQ_FAIL`; no
slot changes (R153, R156, 60_exceptions.md R282). -/
def Obligations.EnqueueOnAFullQueueFails : Prop :=
  ∀ (s : State) (dst : Byte) (rbus : BusId) (timing : Word) (hsel header h : Byte) (payload : List Byte),
    HeaderUsed s hsel header h → overhead h + payload.length + 1 < s.packetMaxLength →
      (∀ p ∈ s.queue, p.state ≠ .free) →
        exec (.enqueue dst rbus timing hsel header payload) s =
          .next { s with
            trace := s.trace ++
              [.errevt .packetsBufferFull (BitVec.ofNat 16 s.queue.length), .response .enqFail] }

/-- `REMOVE` gives the slot the one value of a free slot and touches nothing else; a free slot is left as it is; an index out
of range is refused (R157). -/
def Obligations.RemoveFreesTheSlot : Prop :=
  ∀ (s : State) (slot : Byte),
    (slot.toNat < s.queue.length →
      exec (.remove slot) s =
        .next { s with
          queue := s.queue.set slot.toNat
            { state := .free, destination := 0, header := 0, content := [], length := 0, registration := 0, attempts := 0,
              timing := 0 }
          trace := s.trace ++ [.response .void] }) ∧
    (slot.toNat < s.queue.length → slotAt s slot.toNat = Slot.empty →
      exec (.remove slot) s = .next { s with trace := s.trace ++ [.response .void] }) ∧
    (s.queue.length ≤ slot.toNat → exec (.remove slot) s = .refused .reservedOperand)

/-! ### The ports (20_memory.md) -/

/-- Each port transaction is one entry of the trace with its answer and changes nothing of the block's own state; a draw of
`Random(n)` is below `n`; and the clock read after a delay is at least that delay later (R66, R67, R70, R71, R75). The outside
time behind the clock's 64 bits is the model's choice (log 4). -/
def Obligations.PortTransactionsAreRecorded : Prop :=
  ∀ (s : State) (b : Byte) (n d : Nat),
    ((canStart s).2.own = s.own ∧ (canStart s).2.trace = s.trace ++ [.canStart (canStart s).1]) ∧
      ((receiveByte s).2.own = s.own ∧ (receiveByte s).2.trace = s.trace ++ [.receiveByte (receiveByte s).1]) ∧
      ((receiveResponse s).2.own = s.own ∧
        (receiveResponse s).2.trace = s.trace ++ [.receiveResponse (receiveResponse s).1]) ∧
      ((sendByte b s).own = s.own ∧ (sendByte b s).trace = s.trace ++ [.sendByte b]) ∧
      ((sendResponse b s).own = s.own ∧ (sendResponse b s).trace = s.trace ++ [.sendResponse b]) ∧
      ((now s).2.own = s.own ∧ (now s).2.trace = s.trace ++ [.now (now s).1]) ∧
      ((delay d s).own = s.own ∧ (delay d s).trace = s.trace ++ [.delay d]) ∧
      ((seed s).own = s.own ∧ (seed s).trace = s.trace ++ [.seed]) ∧
      ((random n s).2.own = s.own ∧ (random n s).2.trace = s.trace ++ [.random n (random n s).1]) ∧
      (0 < n → (random n s).1 < n) ∧
      s.env.time + d ≤ (now (delay d s)).2.env.time ∧ (now s).1 = BitVec.ofNat 64 (now s).2.env.time

/-! ### The transmit engine (42_transmit.md) -/

/-- The classification of the response, complete over all 16-bit values; the random delay is one draw below 16 and one `Delay`
of that many microseconds, made also for 0 (R187). -/
def Obligations.ResponseClassification : Prop :=
  ∀ s : State,
    ((receiveResponse s).1 = 6 → awaitResponse s = (.ack, (receiveResponse s).2)) ∧
      ((receiveResponse s).1 = 0x100 → awaitResponse s = (.fail, (receiveResponse s).2)) ∧
      ((receiveResponse s).1 = 21 →
        awaitResponse s =
          (.nak, delay (random 16 (receiveResponse s).2).1 (random 16 (receiveResponse s).2).2)) ∧
      ((receiveResponse s).1 ≠ 6 → (receiveResponse s).1 ≠ 0x100 → (receiveResponse s).1 ≠ 21 →
        awaitResponse s =
          (.fail, delay (random 16 (receiveResponse s).2).1 (random 16 (receiveResponse s).2).2)) ∧
      (random 16 (receiveResponse s).2).1 ≤ 15 ∧
      (random 16 (receiveResponse s).2).2.trace =
        (receiveResponse s).2.trace ++ [.random 16 (random 16 (receiveResponse s).2).1] ∧
      ∀ (d : Nat) (u : State), (delay d u).trace = u.trace ++ [.delay d]

/-- `TX` on a slot that holds a prefix and a payload: in simplex the encoded frame goes out at once and the outcome is `ACK`;
otherwise the medium is sensed once, a busy medium sends nothing and gives `BUSY`; an idle one takes the encoded frame, and then
no response is awaited without acknowledgment or for a broadcast, and one is otherwise (R180 to R186, 40_codec.md R135, R136). -/
def Obligations.TransmitPutsTheEncodedFrameOnTheWire : Prop :=
  ∀ (s : State) (i : Nat) (rbus sbus : BusId) (sid : Byte) (payload : List Byte),
    (slotAt s i).content = framePrefix (slotAt s i).header rbus sbus sid ++ payload →
    (slotAt s i).length.toNat = (slotAt s i).content.length →
      (s.commMode = .simplex →
        transmitSlot i s =
          (.ack, { s with
            trace := s.trace ++
              (encodeFrame (slotAt s i).destination (slotAt s i).header rbus sbus sid payload).map Entry.sendByte })) ∧
      (s.commMode = .halfDuplex → (canStart s).1 = false → transmitSlot i s = (.busy, (canStart s).2)) ∧
      (s.commMode = .halfDuplex → (canStart s).1 = true → (s.acknowledge = false ∨ (slotAt s i).destination = 0) →
        transmitSlot i s =
          (.ack, { (canStart s).2 with
            trace := (canStart s).2.trace ++
              (encodeFrame (slotAt s i).destination (slotAt s i).header rbus sbus sid payload).map Entry.sendByte })) ∧
      (s.commMode = .halfDuplex → (canStart s).1 = true → s.acknowledge = true → (slotAt s i).destination ≠ 0 →
        transmitSlot i s =
          awaitResponse { (canStart s).2 with
            trace := (canStart s).2.trace ++
              (encodeFrame (slotAt s i).destination (slotAt s i).header rbus sbus sid payload).map Entry.sendByte })

/-! ### The scheduler (41_queue_scheduler.md) -/

/-- The due test: strict, the elapsed time modulo 2^64 against an exact natural (R162). -/
def Obligations.DueTest : Prop :=
  ∀ (p : Slot) (t : Time),
    (due p t = true ↔
      p.timing.toNat + p.attempts.toNat * p.attempts.toNat * p.attempts.toNat <
        (t.toNat + 2 ^ 64 - p.registration.toNat) % 2 ^ 64) ∧
      p.timing.toNat + p.attempts.toNat * p.attempts.toNat * p.attempts.toNat ≤ 4311548670

/-- What one turn of `TICK` does to slot `i` (the transition table R172, with the events of R167): by the due test, the
outcome `o` of the transmission that leaves the state `u`, the payload, `timing` and `AUTO_DELETE`. -/
def Obligations.SlotTransitions : Prop :=
  ∀ (s : State) (i : Nat) (p : Slot) (o : Outcome) (u : State),
    i < s.queue.length → slotAt s i = p → p.state ≠ .free → transmitSlot i (now s).2 = (o, u) →
      (due p (now s).1 = false → tickSlot i s = (now s).2) ∧
      (due p (now s).1 = true →
        (o = .busy → tickSlot i s = { u with queue := s.queue.set i { p with state := .busy } }) ∧
        (o = .nak → tickSlot i s = { u with queue := s.queue.set i { p with state := .nak } }) ∧
        (o = .ack → p.timing = 0 → s.autoDelete = true →
          tickSlot i s = { u with queue := s.queue.set i Slot.empty }) ∧
        (o = .ack → (p.timing ≠ 0 ∨ s.autoDelete = false) →
          tickSlot i s =
            { (now u).2 with
              queue := s.queue.set i { p with state := .toBeSent, attempts := 0, registration := (now u).1 } }) ∧
        (o = .fail → (p.attempts + 1).toNat ≤ 125 →
          tickSlot i s = { u with queue := s.queue.set i { p with state := .fail, attempts := p.attempts + 1 } }) ∧
        (o = .fail → 125 < (p.attempts + 1).toNat → isAcquireProbe p = true →
          tickSlot i s = { u with queue := s.queue.set i Slot.empty, deviceId := p.destination }) ∧
        (o = .fail → 125 < (p.attempts + 1).toNat → isAcquireProbe p = false → p.timing = 0 → s.autoDelete = true →
          tickSlot i s =
            { u with
              queue := s.queue.set i Slot.empty
              trace := u.trace ++ [.errevt .connectionLost (p.destination.setWidth 16)] }) ∧
        (o = .fail → 125 < (p.attempts + 1).toNat → isAcquireProbe p = false → p.timing ≠ 0 →
          tickSlot i s =
            { u with
              queue := s.queue.set i { p with state := .fail, attempts := 0 }
              trace := u.trace ++ [.errevt .connectionLost (p.destination.setWidth 16)] }) ∧
        (o = .fail → 125 < (p.attempts + 1).toNat → isAcquireProbe p = false → p.timing = 0 → s.autoDelete = false →
          tickSlot i s =
            { u with
              queue := s.queue.set i { p with state := .fail, attempts := p.attempts + 1 }
              trace := u.trace ++ [.errevt .connectionLost (p.destination.setWidth 16)] }))

/-- The acquisition probe test: the payload after the prefix is the single byte 63 (R166). -/
def Obligations.AcquireProbeIsTheSingleByte : Prop :=
  ∀ (p : Slot) (rbus sbus : BusId) (sid : Byte) (payload : List Byte),
    p.content = framePrefix p.header rbus sbus sid ++ payload → p.length.toNat = p.content.length →
      (isAcquireProbe p = true ↔ payload = [63])

/-- `UPDATE` (and `TICK`) with no pending slot makes no port transaction (R160, R161, D13). -/
def Obligations.UpdateWithNothingPending : Prop :=
  ∀ s : State, (∀ p ∈ s.queue, p.state = .free) →
    exec .update s = .next { s with trace := s.trace ++ [.response .void] } ∧
      exec .tick s = .next { s with trace := s.trace ++ [.response .void] }

/-- `UPDATE` (and `TICK`) delivers the only pending slot (scenario S1): one clock read, one carrier sense, the frame, the
response `ACK`; the one-shot slot is freed and nothing else of the block changes (R160 to R164, 42_transmit.md R180). -/
def Obligations.UpdateDeliversAnAcknowledgedPacket : Prop :=
  ∀ (s : State) (i : Nat) (senses : List Bool) (answers : List Half),
    i < s.queue.length → (slotAt s i).state ≠ .free → (∀ j, j < s.queue.length → j ≠ i → (slotAt s j).state = .free) →
    s.commMode = .halfDuplex → s.acknowledge = true → s.autoDelete = true →
    (slotAt s i).timing = 0 → (slotAt s i).destination ≠ 0 → (slotAt s i).length.toNat = (slotAt s i).content.length →
    due (slotAt s i) (clockValue (passTime s.env)) = true →
    s.env.senseIn = true :: senses → s.env.respIn = 6 :: answers →
      ∀ u : Instr, (u = .update ∨ u = .tick) →
      exec u s =
        .next { s with
          queue := s.queue.set i Slot.empty
          env := { passTime s.env with senseIn := senses, respIn := answers }
          trace := s.trace ++ [.now (clockValue (passTime s.env)), .canStart true] ++
            (frameBytes (slotAt s i).destination ((slotAt s i).length + 4) (slotAt s i).header (slotAt s i).content).map
              Entry.sendByte ++
            [.receiveResponse 6, .response .void] }

/-- `UPDATE` serves every slot once, in increasing index, each wholly before the next is looked at: splitting the slots at any
index gives the same run (R160, R161); and it writes only the queue and `DEVICE_ID` of the block's own state. -/
def Obligations.UpdateServesSlotsInIndexOrder : Prop :=
  ∀ (s : State) (k : Nat), k ≤ s.queue.length →
    exec .update s =
      .next (respond .void
        ((List.range' k (s.queue.length - k)).foldl (fun u i => tickSlot i u)
          ((List.range k).foldl (fun u i => tickSlot i u) s))) ∧
      ∀ t, exec .update s = .next t →
        t.own = { s.own with queue := t.queue, deviceId := t.deviceId } ∧ t.queue.length = s.queue.length

/-! ### The receive engine (43_receive.md) -/

/-- Byte 0: a foreign receiver id gives `BUSY` after one read; only `RXBUF[0]` is written (R203, R208). -/
def Obligations.ForeignReceiverIdIsBusy : Prop :=
  ∀ (s : State) (b : Byte), (receiveByte s).1 = some b → b ≠ s.deviceId → b ≠ 0 → s.router = false →
    exec .receive s =
      .next { (receiveByte s).2 with
        rxbuf := s.rxbuf.write 0 b
        trace := s.trace ++ [.receiveByte (some b), .response (.outcome .busy)] }

/-- Byte 1: a length of at most 4, or of at least `PACKET_MAX_LENGTH`, gives `FAIL` after two reads, when byte 0 passed its
filter (R204). -/
def Obligations.IllegalLengthIsFail : Prop :=
  ∀ (s : State) (dst len : Byte) (rest : List (Option Byte)), Delivers s [dst, len] rest →
    (dst = s.deviceId ∨ dst = 0 ∨ s.router = true) → (len.toNat ≤ 4 ∨ s.packetMaxLength ≤ len.toNat) →
      exec .receive s =
        .next { s with
          rxbuf := (s.rxbuf.write 0 dst).write 1 len
          env := { s.env with byteIn := rest }
          trace := s.trace ++ [.receiveByte (some dst), .receiveByte (some len), .response (.outcome .fail)] }

/-- Bytes 2 to 6: a header whose `MODE` bit disagrees with `SHARED` gives `BUSY` after three reads (R205), and the first byte
among 3 to 6 that differs from the same byte of `BUS_ID` gives `BUSY` at that byte (R206, D17), when the bytes before them passed
their filters and the device is no router. The bytes read are stored, nothing else of the block changes. -/
def Obligations.ForeignHeaderOrBusIdIsBusy : Prop :=
  ∀ (s : State) (dst len h : Byte) (bus : List Byte) (rest : List (Option Byte)),
    Delivers s (dst :: len :: h :: bus) rest → (dst = s.deviceId ∨ dst = 0) → s.router = false →
    5 ≤ len.toNat → len.toNat < s.packetMaxLength →
    ((bus = [] ∧ modeBit h ≠ s.shared) ∨
      ∃ (j : Nat) (b : Byte), j < 4 ∧ 3 + j < len.toNat ∧ s.shared = true ∧ modeBit h = true ∧
        bus = s.busId.bytes.take j ++ [b] ∧ s.busId.bytes[j]? ≠ some b) →
      ∃ t, exec .receive s = .next t ∧ t.own = { s.own with rxbuf := t.rxbuf } ∧ t.env = { s.env with byteIn := rest } ∧
        t.trace = s.trace ++ (dst :: len :: h :: bus).map (fun b => Entry.receiveByte (some b)) ++
          [.response (.outcome .busy)] ∧
        ∀ j, t.rxbuf.read j = if j < bus.length + 3 then (dst :: len :: h :: bus)[j]? else s.rxbuf.read j

/-- `RECEIVE` is one pass and its outcome; and a pass stores the bytes it read, from index 0 on, whatever it comes to: it writes
nothing else of the block but `LPI` and `LPI_VALID`, and every byte of `RXBUF` beyond those it read keeps its value (R200, R208,
R222). -/
def Obligations.PassStoresTheBytesItReads : Prop :=
  ∀ s : State,
    exec .receive s =
        .next { (receive1 s).2 with trace := (receive1 s).2.trace ++ [.response (.outcome (receive1 s).1)] } ∧
      (receive1 s).2.own =
        { s.own with
          rxbuf := (receive1 s).2.rxbuf, lpi := (receive1 s).2.lpi, lpiValid := (receive1 s).2.lpiValid } ∧
      ∃ es, (receive1 s).2.trace = s.trace ++ es ∧
        ∀ j, (receive1 s).2.rxbuf.read j =
          if j < (received es).length then (received es)[j]? else s.rxbuf.read j

/-- A failed read anywhere in a pass makes its outcome `FAIL`, with no response symbol and no event (R202). -/
def Obligations.FailedReadIsFail : Prop :=
  ∀ (s : State) (es : List Entry), (receive1 s).2.trace = s.trace ++ es → Entry.receiveByte none ∈ es →
    (receive1 s).1 = .fail ∧ (∀ sym, Entry.sendResponse sym ∉ es) ∧ (∀ off len info, Entry.rxevt off len info ∉ es)

/-- A pass that ends in `ACK` sets `LPI_VALID` and raises one receive event that carries `LPI`; any other pass leaves `LPI` and
`LPI_VALID` as they were and raises no event (R211, R214, R216). -/
def Obligations.MetadataIsWrittenOnAcceptOnly : Prop :=
  ∀ s : State,
    ((receive1 s).1 = .ack → (receive1 s).2.lpiValid = true ∧
      ∃ es off len, (receive1 s).2.trace = s.trace ++ es ++ [.rxevt off len (receive1 s).2.lpi] ∧
        ∀ e ∈ es, ∀ off len info, e ≠ .rxevt off len info) ∧
    ((receive1 s).1 ≠ .ack → (receive1 s).2.lpi = s.lpi ∧ (receive1 s).2.lpiValid = s.lpiValid ∧
      ∀ es, (receive1 s).2.trace = s.trace ++ es → ∀ e ∈ es, ∀ off len info, e ≠ .rxevt off len info)

/-- In simplex mode a pass sends no response symbol (R221). -/
def Obligations.SimplexReceiverIsSilent : Prop :=
  ∀ s : State, s.commMode = .simplex →
    ∃ t es, exec .receive s = .next t ∧ t.trace = s.trace ++ es ∧ ∀ sym, Entry.sendResponse sym ∉ es

/-- A frame that the strategy delivers whole, that passes the filters and is as the framer builds it, is accepted: `LPI` and the
buffer hold it, a response is sent when one is due, the event points at its payload, and the result is `ACK` (R201, R207 to
R215, R217). Any header byte, reserved bits included; any payload that fits. -/
def Obligations.EncodedFrameIsAccepted : Prop :=
  ∀ (s : State) (dst h : Byte) (rbus sbus : BusId) (sid : Byte) (payload : List Byte) (rest : List (Option Byte)),
    Delivers s (encodeFrame dst h rbus sbus sid payload) rest → PassesFilters s dst h rbus →
    5 ≤ overhead h + payload.length + 1 → overhead h + payload.length + 1 < s.packetMaxLength → s.packetMaxLength ≤ 255 →
      ∃ t, exec .receive s = .next t ∧
        t.own = { s.own with rxbuf := t.rxbuf, lpi := frameInfo dst h rbus sbus sid, lpiValid := true } ∧
        t.env = { s.env with byteIn := rest } ∧
        t.trace = s.trace ++ (encodeFrame dst h rbus sbus sid payload).map (fun b => Entry.receiveByte (some b)) ++
          (if ResponseDue s dst h rbus then [Entry.sendResponse 6] else []) ++
          [.rxevt (BitVec.ofNat 8 (overhead h)) (BitVec.ofNat 8 payload.length) (frameInfo dst h rbus sbus sid),
            .response (.outcome .ack)] ∧
        ∀ j, t.rxbuf.read j =
          if j < overhead h + payload.length + 1 then (encodeFrame dst h rbus sbus sid payload)[j]? else s.rxbuf.read j

/-- The same frame with another last byte is rejected: `NAK` is sent when a response is due, no event, `LPI` as it was, and the
result is `NAK` (R209, R216). So is a whole frame that is shorter than its header needs, whatever its CRC (R210, 40_codec.md R138);
a response is due to it only where the receiver bus id is whole (R212). -/
def Obligations.CorruptFrameIsRejected : Prop :=
  (∀ (s : State) (dst h : Byte) (content : List Byte) (rbus sbus : BusId) (sid : Byte) (payload : List Byte) (c : Byte)
    (rest : List (Option Byte)),
    content = framePrefix h rbus sbus sid ++ payload →
    Delivers s (frameBody dst h content ++ [c]) rest → PassesFilters s dst h rbus → c ≠ crc8 (frameBody dst h content) →
    5 ≤ content.length + 4 → content.length + 4 < s.packetMaxLength → s.packetMaxLength ≤ 255 →
      ∃ t, exec .receive s = .next t ∧ t.own = { s.own with rxbuf := t.rxbuf } ∧
        t.env = { s.env with byteIn := rest } ∧
        t.trace = s.trace ++ (frameBody dst h content ++ [c]).map (fun b => Entry.receiveByte (some b)) ++
          (if ResponseDue s dst h rbus then [Entry.sendResponse 21] else []) ++ [.response (.outcome .nak)] ∧
        ∀ j, t.rxbuf.read j =
          if j < content.length + 4 then (frameBody dst h content ++ [c])[j]? else s.rxbuf.read j) ∧
  ∀ (s : State) (dst len h : Byte) (body : List Byte) (rest : List (Option Byte)),
    Delivers s (dst :: len :: h :: body) rest → len.toNat = body.length + 3 → 5 ≤ len.toNat →
    len.toNat < s.packetMaxLength → len.toNat < overhead h + 1 →
    (dst = s.deviceId ∨ dst = 0 ∨ s.router = true) → (modeBit h = s.shared ∨ s.router = true) →
    (s.shared = true → modeBit h = true → s.router = false → body.take 4 = s.busId.bytes.take body.length) →
      ∃ t, exec .receive s = .next t ∧ t.own = { s.own with rxbuf := t.rxbuf } ∧
        t.env = { s.env with byteIn := rest } ∧
        t.trace = s.trace ++ (dst :: len :: h :: body).map (fun b => Entry.receiveByte (some b)) ++
          (if ackRequestBit h = true ∧ dst ≠ 0 ∧ s.commMode ≠ .simplex ∧
              (s.shared = false ∨ (modeBit h = true ∧ body.take 4 = s.busId.bytes)) then
            [Entry.sendResponse 21] else []) ++ [.response (.outcome .nak)] ∧
        ∀ j, t.rxbuf.read j = if j < len.toNat then (dst :: len :: h :: body)[j]? else s.rxbuf.read j

/-- The loop of `RECEIVE_FOR` (R230): the start time is read, a pass is made; `ACK` ends the command at once; after another
outcome the clock is read, and the command ends with that outcome when the elapsed time exceeds the duration, and makes another
pass otherwise. That a turn takes a step is the model's choice (log 1). -/
def Obligations.ReceiveForLoop : Prop :=
  ∀ (duration : Word) (t0 : Time) (s : State) (run : Host.Outcome State Fault Refusal) (r : State),
    ((run = exec (.receiveFor duration) s ∧ t0 = (now s).1 ∧ r = (now s).2) ∨
      (run = step s ∧ s.running = .receiveFor t0 duration ∧ r = s)) →
      ((receive1 r).1 = .ack →
        run = .next { (receive1 r).2 with
          running := .idle, trace := (receive1 r).2.trace ++ [.response (.outcome .ack)] }) ∧
      ((receive1 r).1 ≠ .ack → duration.toNat < ((now (receive1 r).2).1 - t0).toNat →
        run = .next { (now (receive1 r).2).2 with
          running := .idle, trace := (now (receive1 r).2).2.trace ++ [.response (.outcome (receive1 r).1)] }) ∧
      ((receive1 r).1 ≠ .ack → ((now (receive1 r).2).1 - t0).toNat ≤ duration.toNat →
        run = .next { (now (receive1 r).2).2 with running := .receiveFor t0 duration })

/-! ### The bus controller (44_controller.md) -/

/-- `BEGIN`: seed, a draw below 1000, a sleep of as many thousand microseconds, `VOID`; no state of the block changes (R240). That
the draw is the one supplied, if any, is the model's choice (log 3), and so is the outside time that moves on by exactly the
sleep (log 4), of which the spec says only that the next clock read is at least that much later (20_memory.md R71). -/
def Obligations.BeginSeedsDrawsAndSleeps : Prop :=
  ∀ s : State, ∃ (r : Nat) (t : State), exec .beginOp s = .next t ∧ r < 1000 ∧ t.own = s.own ∧
    t.trace = s.trace ++ [.seed, .random 1000 r, .delay (r * 1000), .response .void] ∧
    t.env.time = s.env.time + r * 1000 ∧
    ∀ d rest, s.env.drawIn = d :: rest → d < 1000 → r = d

/-- Each setter writes its register and nothing else, makes no port transaction, raises no event and returns `VOID`, for every
legal operand (R241 to R249). -/
def Obligations.SettersWriteTheirRegister : Prop :=
  ∀ (s : State) (id a b v : Byte) (bus : BusId) (f : Bool), v = (if f then 1 else 0) →
    exec (.setId id) s = .next { s with deviceId := id, trace := s.trace ++ [.response .void] } ∧
      exec (.setBusId bus) s = .next { s with busId := bus, trace := s.trace ++ [.response .void] } ∧
      exec (.setShared v) s = .next { s with shared := f, trace := s.trace ++ [.response .void] } ∧
      exec (.setRouter v) s = .next { s with router := f, trace := s.trace ++ [.response .void] } ∧
      exec (.setSenderInfo v) s = .next { s with senderInfoEn := f, trace := s.trace ++ [.response .void] } ∧
      exec (.setAck v) s = .next { s with acknowledge := f, trace := s.trace ++ [.response .void] } ∧
      exec (.setAutoDelete v) s = .next { s with autoDelete := f, trace := s.trace ++ [.response .void] } ∧
      exec (.setMode 150) s = .next { s with commMode := .simplex, trace := s.trace ++ [.response .void] } ∧
      exec (.setMode 151) s = .next { s with commMode := .halfDuplex, trace := s.trace ++ [.response .void] } ∧
      exec (.setPins a b) s = .next { s with inputPin := a, outputPin := b, trace := s.trace ++ [.response .void] }

/-- `GET_ID` returns `ID(DEVICE_ID)` and changes nothing (R250). -/
def Obligations.GetIdReturnsTheDeviceId : Prop :=
  ∀ s : State, exec .getId s = .next { s with trace := s.trace ++ [.response (.id s.deviceId)] }

/-- `REPLY` enqueues to the last sender, on its bus, a one-shot packet with a header chosen now; a reply that does not fit, or
finds no free slot, fails with the event of the enqueue and `ENQ_FAIL`, and takes no slot (R251, 41_queue_scheduler.md R152, R153,
R156). -/
def Obligations.ReplyEnqueuesToTheLastSender : Prop :=
  ∀ (s : State) (payload : List Byte) (h : Byte), s.lpiValid = true → s.lpi.senderId ≠ 0 →
    h = headerOfBits s.shared s.senderInfoEn s.acknowledge →
      (∀ i, overhead h + payload.length + 1 < s.packetMaxLength → LowestFree s i →
        exec (.reply payload) s = .next (s.enqueued i s.lpi.senderId s.lpi.senderBusId 0 h payload)) ∧
      (s.packetMaxLength ≤ overhead h + payload.length + 1 →
        exec (.reply payload) s =
          .next { s with
            trace := s.trace ++
              [.errevt .contentTooLong (BitVec.ofNat 16 (overhead h + payload.length + 1)), .response .enqFail] }) ∧
      (overhead h + payload.length + 1 < s.packetMaxLength → (∀ p ∈ s.queue, p.state ≠ .free) →
        exec (.reply payload) s =
          .next { s with
            trace := s.trace ++ [.errevt .packetsBufferFull (BitVec.ofNat 16 s.queue.length), .response .enqFail] })

/-- `REPLY` is a no-op when the last sender was broadcast, and is refused before any frame was accepted (R251). -/
def Obligations.ReplyWithoutASender : Prop :=
  ∀ (s : State) (payload : List Byte),
    (s.lpiValid = true → s.lpi.senderId = 0 →
      exec (.reply payload) s = .next { s with trace := s.trace ++ [.response .noop] }) ∧
    (s.lpiValid = false → exec (.reply payload) s = .refused .replyBeforeAccept)

/-! ### The address-request arbiter (45_id_acquisition.md) -/

/-- `ACQUIRE_ID` with an open window, a probe that fits and a free slot reads the clock three times and puts the probe to id 1,
the one byte 63, into the lowest free slot, and the scan then runs on; with the window over at its first test it ends at once,
with `ID_ACQUISITION_FAIL`, and so it does when the first probe cannot be enqueued, after that enqueue's own event (R270, R271,
R272, R274). That the scan runs on in further steps is the model's choice (log 1). -/
def Obligations.AcquireIdProbesIdOne : Prop :=
  ∀ (s : State) (h : Byte), h = headerOfBits s.shared s.senderInfoEn s.acknowledge →
    (∀ i, ((now (now s).2).1 - (now s).1).toNat < 5000000 → overhead h + 2 < s.packetMaxLength → LowestFree s i →
      exec .acquireId s =
        .next { (now (now (now s).2).2).2 with
          running := .acquireProbe (now s).1 1 i
          queue := s.queue.set i
            { state := .toBeSent, destination := 1, header := h, content := framePrefix h s.busId s.busId s.deviceId ++ [63],
              length := BitVec.ofNat 8 (prefixLen h + 1), registration := (now (now (now s).2).2).1, attempts := 0,
              timing := 0 } }) ∧
    (5000000 ≤ ((now (now s).2).1 - (now s).1).toNat →
      exec .acquireId s =
        .next { (now (now s).2).2 with
          running := .idle
          trace := (now (now s).2).2.trace ++ [.errevt .idAcquisitionFail 0x100, .response .void] }) ∧
    (((now (now s).2).1 - (now s).1).toNat < 5000000 → s.packetMaxLength ≤ overhead h + 2 →
      exec .acquireId s =
        .next { (now (now s).2).2 with
          running := .idle
          trace := (now (now s).2).2.trace ++
            [.errevt .contentTooLong (BitVec.ofNat 16 (overhead h + 2)), .errevt .idAcquisitionFail 0x100,
              .response .void] }) ∧
    (((now (now s).2).1 - (now s).1).toNat < 5000000 → overhead h + 2 < s.packetMaxLength →
      (∀ p ∈ s.queue, p.state ≠ .free) →
      exec .acquireId s =
        .next { (now (now s).2).2 with
          running := .idle
          trace := (now (now s).2).2.trace ++
            [.errevt .packetsBufferFull (BitVec.ofNat 16 s.queue.length), .errevt .idAcquisitionFail 0x100,
              .response .void] })

/-- The turns of the inner loop and the ends of the scan (R270 to R274): the inner loop ends when the probe's slot is free, before
any clock read, or when a clock read finds the window over while the probe is still pending, which leaves the slot as it is; then
an assigned id ends the command with `VOID`, and an unassigned one goes on with the next candidate; a pending probe inside the
window is served by one `TICK`; the scan fails, with `ID_ACQUISITION_FAIL`, when the candidates are used up or the window is
over. That a turn takes a step is the model's choice (log 1). -/
def Obligations.AcquireIdTurns : Prop :=
  ∀ (s : State) (t0 : Time) (k i : Nat),
    (s.running = .acquireProbe t0 k i → (slotAt s i).state = .free → s.deviceId ≠ 255 →
      step s = .next { s with running := .idle, trace := s.trace ++ [.response .void] }) ∧
    (s.running = .acquireProbe t0 k i → (slotAt s i).state = .free → s.deviceId = 255 →
      step s = .next { s with running := .acquireScan t0 (k + 1) }) ∧
    (s.running = .acquireProbe t0 k i → (slotAt s i).state ≠ .free → ((now s).1 - t0).toNat < 5000000 →
      step s = .next (tick (now s).2)) ∧
    (s.running = .acquireProbe t0 k i → (slotAt s i).state ≠ .free → 5000000 ≤ ((now s).1 - t0).toNat →
      s.deviceId ≠ 255 →
      step s = .next { (now s).2 with running := .idle, trace := (now s).2.trace ++ [.response .void] }) ∧
    (s.running = .acquireProbe t0 k i → (slotAt s i).state ≠ .free → 5000000 ≤ ((now s).1 - t0).toNat →
      s.deviceId = 255 →
      step s = .next { (now s).2 with running := .acquireScan t0 (k + 1) }) ∧
    (s.running = .acquireScan t0 k → 254 < k →
      step s =
        .next { s with
          running := .idle, trace := s.trace ++ [.errevt .idAcquisitionFail 0x100, .response .void] }) ∧
    (s.running = .acquireScan t0 k → k ≤ 254 → 5000000 ≤ ((now s).1 - t0).toNat →
      step s =
        .next { (now s).2 with
          running := .idle, trace := (now s).2.trace ++ [.errevt .idAcquisitionFail 0x100, .response .void] })

/-- A scan turn inside the window, for any candidate `k` (R270, R271, R274): the probe to `k` goes into the lowest free slot, and
the inner loop waits for it; a probe that is too long or finds no slot ends the scan, with the event of that enqueue and then
`ID_ACQUISITION_FAIL`. That a turn takes a step is the model's choice (log 1). -/
def Obligations.AcquireScanProbesTheCandidate : Prop :=
  ∀ (s : State) (t0 : Time) (k : Nat) (h : Byte), s.running = .acquireScan t0 k → k ≤ 254 →
    ((now s).1 - t0).toNat < 5000000 → h = headerOfBits s.shared s.senderInfoEn s.acknowledge →
      (∀ i, overhead h + 2 < s.packetMaxLength → LowestFree s i →
        step s =
          .next { (now (now s).2).2 with
            running := .acquireProbe t0 k i
            queue := s.queue.set i
              { state := .toBeSent, destination := BitVec.ofNat 8 k, header := h,
                content := framePrefix h s.busId s.busId s.deviceId ++ [63], length := BitVec.ofNat 8 (prefixLen h + 1),
                registration := (now (now s).2).1, attempts := 0, timing := 0 } }) ∧
      (s.packetMaxLength ≤ overhead h + 2 →
        step s =
          .next { (now s).2 with
            running := .idle
            trace := (now s).2.trace ++
              [.errevt .contentTooLong (BitVec.ofNat 16 (overhead h + 2)), .errevt .idAcquisitionFail 0x100,
                .response .void] }) ∧
      (overhead h + 2 < s.packetMaxLength → (∀ p ∈ s.queue, p.state ≠ .free) →
        step s =
          .next { (now s).2 with
            running := .idle
            trace := (now s).2.trace ++
              [.errevt .packetsBufferFull (BitVec.ofNat 16 s.queue.length), .errevt .idAcquisitionFail 0x100,
                .response .void] })

/-! ### Frames, symbols and records -/

/-- A well-formed frame row sent: its own bytes go onto the wire, the CRC byte last; in simplex at once, otherwise after a
carrier sense that finds the medium idle, with a wait for the response where one is expected (30_encoding.md R90, R95, R97;
42_transmit.md R180); and this is what the transmit engine, run by `UPDATE`, does with a slot that holds the same frame. What a
frame row does by itself is the model's choice (log 13). -/
def Obligations.SentFrameRowPutsItsBytesOnTheWire : Prop :=
  ∀ (s : State) (maxPackets : Nat) (i : Instr) (dst : Byte) (more : List Byte), i.wellFormed maxPackets = true →
    encode i = ⟨.frame .sent, dst :: more⟩ →
      (s.commMode = .simplex →
        exec i s = .next { s with trace := s.trace ++ (dst :: more).map Entry.sendByte }) ∧
      (s.commMode = .halfDuplex → (canStart s).1 = false → exec i s = .next (canStart s).2) ∧
      (s.commMode = .halfDuplex → (canStart s).1 = true → (s.acknowledge = false ∨ dst = 0) →
        exec i s = .next { (canStart s).2 with
          trace := (canStart s).2.trace ++ (dst :: more).map Entry.sendByte }) ∧
      (s.commMode = .halfDuplex → (canStart s).1 = true → s.acknowledge = true → dst ≠ 0 →
        exec i s = .next (awaitResponse { (canStart s).2 with
          trace := (canStart s).2.trace ++ (dst :: more).map Entry.sendByte }).2) ∧
      ∀ k, (slotAt s k).length.toNat = (slotAt s k).content.length →
        frameBytes (slotAt s k).destination ((slotAt s k).length + 4) (slotAt s k).header (slotAt s k).content = dst :: more →
        exec i s = .next (transmitSlot k s).2

/-- A frame row received: the pass of the receive engine to which the strategy delivers the row's own bytes, the outside being
afterwards as it was (43_receive.md R201); it does to the block and to the trace what the pass of a `RECEIVE` does that is
delivered these bytes, whatever the strategy answers after them (70_reset_and_hazards.md R325). What a frame row does by itself
is the model's choice (log 13). -/
def Obligations.ReceivedFrameRowIsAPassOverItsBytes : Prop :=
  ∀ (s : State) (i : Instr) (bytes : List Byte), encode i = ⟨.frame .received, bytes⟩ →
    exec i s = .next { (receive1 { s with env := { s.env with byteIn := bytes.map some } }).2 with env := s.env } ∧
      ∀ rest, Delivers s bytes rest → exec i s = .next { (receive1 s).2 with env := s.env }

/-- A received frame row whose CRC byte is right, addressed to this device and passing the filters, is accepted: `LPI` takes its
fields, `RXBUF` its bytes, the response is sent when due, and the event is raised (43_receive.md R209 to R215; log 13). -/
def Obligations.ReceivedFrameRowsAreAccepted : Prop :=
  ∀ (s : State) (flags : BitVec 6) (rbus sbus : BusId) (sid dst h : Byte) (payload : List Byte) (i : Instr),
    (i = .frameLocal .received dst flags payload (crc8 (frameBody dst h payload)) ∧ h = flags ++ 0#2 ∨
      i = .frameShared .received dst flags rbus payload (crc8 (frameBody dst h (rbus.bytes ++ payload))) ∧ h = flags ++ 1#2 ∨
      i = .frameLocalSender .received dst flags sid payload (crc8 (frameBody dst h ([sid] ++ payload))) ∧ h = flags ++ 2#2 ∨
      i = .frameSharedSender .received dst flags rbus sbus sid payload
          (crc8 (frameBody dst h (rbus.bytes ++ sbus.bytes ++ [sid] ++ payload))) ∧ h = flags ++ 3#2) →
    PassesFilters s dst h rbus → 5 ≤ overhead h + payload.length + 1 →
    overhead h + payload.length + 1 < s.packetMaxLength → s.packetMaxLength ≤ 255 →
      ∃ t, exec i s = .next t ∧
        t.own = { s.own with rxbuf := t.rxbuf, lpi := frameInfo dst h rbus sbus sid, lpiValid := true } ∧
        t.env = s.env ∧
        t.trace = s.trace ++ (encode i).bytes.map (fun b => Entry.receiveByte (some b)) ++
          (if ResponseDue s dst h rbus then [Entry.sendResponse 6] else []) ++
          [.rxevt (BitVec.ofNat 8 (overhead h)) (BitVec.ofNat 8 payload.length) (frameInfo dst h rbus sbus sid)] ∧
        ∀ j, t.rxbuf.read j =
          if j < overhead h + payload.length + 1 then (encode i).bytes[j]? else s.rxbuf.read j

/-- The response symbols: sent, one `SendResponse` (43_receive.md R213, R216); received, one `ReceiveResponse`, and after a
`NAK` the random delay of 0 to 15 µs (42_transmit.md R187). What a symbol row does by itself is the model's choice (log 13). -/
def Obligations.SymbolRows : Prop :=
  ∀ s : State,
    exec (.ack .sent) s = .next { s with trace := s.trace ++ [.sendResponse 6] } ∧
      exec (.nak .sent) s = .next { s with trace := s.trace ++ [.sendResponse 21] } ∧
      exec (.ack .received) s = .next { s with trace := s.trace ++ [.receiveResponse 6] } ∧
      ∃ (d : Nat) (t : State), exec (.nak .received) s = .next t ∧ d ≤ 15 ∧ t.own = s.own ∧
        t.trace = s.trace ++ [.receiveResponse 21, .random 16 d, .delay d]

/-- The response and event records: each is put on its stream, and nothing else changes (30_encoding.md R104, R118 to R120).
What a record row does by itself is the model's choice (log 14). -/
def Obligations.RecordRowsPutTheRecordOnItsStream : Prop :=
  ∀ (s : State) (slot id off len : Byte) (o : Outcome) (info : PacketInfo) (data : Half),
    exec .respVoid s = .next { s with trace := s.trace ++ [.response .void] } ∧
      (slot.toNat < s.queue.length →
        exec (.respSlot slot) s = .next { s with trace := s.trace ++ [.response (.slot slot)] }) ∧
      exec .respEnqFail s = .next { s with trace := s.trace ++ [.response .enqFail] } ∧
      exec (.respOutcome o) s = .next { s with trace := s.trace ++ [.response (.outcome o)] } ∧
      exec .respNoop s = .next { s with trace := s.trace ++ [.response .noop] } ∧
      exec (.respId id) s = .next { s with trace := s.trace ++ [.response (.id id)] } ∧
      exec (.rxevt off len info) s = .next { s with trace := s.trace ++ [.rxevt off len info] } ∧
      exec (.errevt 101 data) s = .next { s with trace := s.trace ++ [.errevt .connectionLost data] } ∧
      exec (.errevt 102 data) s = .next { s with trace := s.trace ++ [.errevt .packetsBufferFull data] } ∧
      exec (.errevt 103 data) s = .next { s with trace := s.trace ++ [.errevt .memoryFull data] } ∧
      exec (.errevt 104 data) s = .next { s with trace := s.trace ++ [.errevt .contentTooLong data] } ∧
      exec (.errevt 105 data) s = .next { s with trace := s.trace ++ [.errevt .idAcquisitionFail data] }

/-! ### Reset and the whole machine -/

/-- What reset leaves in everything the spec gives a reset value (70_reset_and_hazards.md R310); the pins, `RXBUF` and `LPI` are
not written by it and are not stated here. -/
def Obligations.ResetState : Prop :=
  ∀ p : Config.Params,
    (State.resetWith p).deviceId = p.initDeviceId ∧ (State.resetWith p).busId = p.initBusId ∧
      (State.resetWith p).commMode = .halfDuplex ∧ (State.resetWith p).acknowledge = true ∧
      (State.resetWith p).senderInfoEn = false ∧
      ((State.resetWith p).shared = true ↔ p.initBusId ≠ ⟨0, 0, 0, 0⟩) ∧ (State.resetWith p).router = false ∧
      (State.resetWith p).autoDelete = true ∧ (State.resetWith p).queue.length = p.maxPackets ∧
      (∀ i, i < p.maxPackets →
        slotAt (State.resetWith p) i =
          { state := .free, destination := 0, header := 0, content := [], length := 0, registration := 0, attempts := 0,
            timing := 0 }) ∧
      (State.resetWith p).lpiValid = false ∧ (State.resetWith p).trace = [] ∧ (State.resetWith p).running = .idle ∧
      State.reset = State.resetWith { maxPackets := 10, packetMaxLength := 50, initDeviceId := 255, initBusId := ⟨0, 0, 0, 0⟩ }

/-- The invariant holds at reset, for all legal parameters (10_state.md R42, 00_scope.md R6). -/
def Obligations.InvariantHoldsAtReset : Prop :=
  State.reset.inv ∧ ∀ p : Config.Params, p.legal → (State.resetWith p).inv

/-- Every step keeps the invariant, from every state that has it (10_state.md R42 with its qualifications, R37, R38, R44;
41_queue_scheduler.md R172: the state `ACK` is never seen): free slots have their one value, contents have the length the slot
says and fit a frame, headers to send have their reserved bits clear, repeating slots keep `attempts ≤ MAX_ATTEMPTS`, and the
receive buffer stays in canonical form and in range. The canonical form is the model's (log 8), and the last clause, that a
running command's candidate id and probe slot are in range (45_id_acquisition.md R270), is about states between the turns of a
command, which are the model's choice (log 1). -/
def Obligations.EveryStepKeepsTheInvariant : Prop :=
  ∀ s t : State, s.inv → step s = .next t → t.inv

/-- Every step only adds to the trace (20_memory.md R75, R76), and the outside time never goes back. The spec has the clock's
answers only, which are monotone (R71): the unbounded outside time behind them is the model's choice (log 4). -/
def Obligations.EveryStepExtendsTheTrace : Prop :=
  ∀ s t : State, step s = .next t → s.advances t

/-- Each command answers with exactly one response record, last of all its entries, in the step in which it ends, and none
before (20_memory.md R65, 10_state.md R47). That `RECEIVE_FOR` and `ACQUIRE_ID` take more than one step, so that there are steps
in which a command still runs, is the model's choice (log 1). -/
def Obligations.OneResponsePerCommand : Prop :=
  ∀ s t : State, step s = .next t →
    (s.running ≠ .idle ∨ s.inbox ≠ []) →
      (t.running = .idle →
        ∃ es r, t.trace = s.trace ++ es ++ [.response r] ∧ responses es = []) ∧
      (t.running ≠ .idle → ∃ es, t.trace = s.trace ++ es ∧ responses es = [])

/-- Each configuration register is written only by the commands the spec names for it, the queue, `RXBUF` and `LPI` only by the
operations that reach them, and the parameters by none (10_state.md R22 to R31, 20_memory.md R61); the turns of a running
`RECEIVE_FOR` write no configuration register and no slot, those of an `ACQUIRE_ID` no configuration register but `DEVICE_ID` and
nothing of the receive side. Turns are the model's choice (log 1), and so are the received frame rows (log 13). -/
def Obligations.RegistersAreWrittenOnlyByTheirCommands : Prop :=
  (∀ (i : Instr) (s t : State), exec i s = .next t →
    (t.deviceId ≠ s.deviceId → i = .update ∨ i = .tick ∨ ∃ id, i = .setId id) ∧
    (t.busId ≠ s.busId → ∃ bus, i = .setBusId bus) ∧
    (t.commMode ≠ s.commMode → ∃ m, i = .setMode m) ∧
    (t.acknowledge ≠ s.acknowledge → ∃ v, i = .setAck v) ∧
    (t.senderInfoEn ≠ s.senderInfoEn → ∃ v, i = .setSenderInfo v) ∧
    (t.shared ≠ s.shared → ∃ v, i = .setShared v) ∧
    (t.router ≠ s.router → ∃ v, i = .setRouter v) ∧
    (t.autoDelete ≠ s.autoDelete → ∃ v, i = .setAutoDelete v) ∧
    ((t.inputPin ≠ s.inputPin ∨ t.outputPin ≠ s.outputPin) → ∃ a b, i = .setPins a b) ∧
    (t.queue ≠ s.queue →
      i = .update ∨ i = .tick ∨ i = .acquireId ∨ (∃ slot, i = .remove slot) ∨ (∃ pl, i = .reply pl) ∨
        (∃ dst bus pl, i = .send dst bus pl) ∨ (∃ dst bus pl h, i = .sendH dst bus pl h) ∨
        (∃ dst bus pl tm, i = .sendRepeatedly dst bus pl tm) ∨
        (∃ dst bus pl tm h, i = .sendRepeatedlyH dst bus pl tm h) ∨
        (∃ dst bus tm hs h pl, i = .enqueue dst bus tm hs h pl)) ∧
    ((t.rxbuf ≠ s.rxbuf ∨ t.lpi ≠ s.lpi ∨ t.lpiValid ≠ s.lpiValid) →
      i = .receive ∨ (∃ d, i = .receiveFor d) ∨ (encode i).space = .frame .received) ∧
    t.packetMaxLength = s.packetMaxLength ∧ t.queue.length = s.queue.length) ∧
  ∀ s : State,
    (resume s).busId = s.busId ∧ (resume s).commMode = s.commMode ∧ (resume s).acknowledge = s.acknowledge ∧
      (resume s).senderInfoEn = s.senderInfoEn ∧ (resume s).shared = s.shared ∧ (resume s).router = s.router ∧
      (resume s).autoDelete = s.autoDelete ∧ (resume s).inputPin = s.inputPin ∧ (resume s).outputPin = s.outputPin ∧
      (resume s).packetMaxLength = s.packetMaxLength ∧ (resume s).queue.length = s.queue.length ∧
      ((∃ t0 duration, s.running = .receiveFor t0 duration) →
        (resume s).deviceId = s.deviceId ∧ (resume s).queue = s.queue) ∧
      ((∀ t0 duration, s.running ≠ .receiveFor t0 duration) →
        (resume s).rxbuf = s.rxbuf ∧ (resume s).lpi = s.lpi ∧ (resume s).lpiValid = s.lpiValid)

/-- A well-formed instruction runs, in every state, but for a `REPLY` before any frame was accepted; and there is no fault. Of the
commands and pseudo-commands this is what the rules say (60_exceptions.md R280, R287; 00_scope.md R13). Of the frame, symbol and
record rows they say nothing: that these run as instructions of their own is the model's choice (log 13, log 14), and so is that a
frame row of length 4, or of `PACKET_MAX_LENGTH` or more, is sent as it is (log 24). -/
def Obligations.WellFormedInstructionsRun : Prop :=
  (∀ (s : State) (i : Instr), i.wellFormed s.queue.length = true → (∀ payload, i = .reply payload → s.lpiValid = true) →
    ∃ t, exec i s = .next t) ∧
  ∀ (s : State) (f : Fault), step s ≠ .fault f

/-- What `step` refuses, and nothing else (60_exceptions.md R287; 30_encoding.md R121, R122): between commands, a command packet
that is invalid, a command with a reserved operand or reserved header bits, or a `REPLY` before any frame was accepted. -/
def Obligations.OnlyTheListedSituationsAreRefused : Prop :=
  ∀ (s : State) (r : Refusal), step s = .refused r →
    s.running = .idle ∧ ∃ bytes rest, s.inbox = bytes :: rest ∧
      ((∃ why, decode ⟨.command, bytes⟩ = .error why ∧ commandLength bytes ≠ some bytes.length ∧ r = .invalidPacket why) ∨
        (∃ i, decode ⟨.command, bytes⟩ = .ok i ∧ i.wellFormed s.queue.length = false ∧
          (r = .reservedOperand ∨ r = .reservedHeaderBits)) ∨
        (∃ payload, decode ⟨.command, bytes⟩ = .ok (.reply payload) ∧ s.lpiValid = false ∧ r = .replyBeforeAccept))

/-- No rule reads the pins (10_state.md R31, 44_controller.md R249): two machines that differ only in them answer every step
alike and keep the difference, whether the step starts a command or is a turn of one, unless the command is `SET_PINS`; the same
of every instruction by itself; and `SET_PINS` makes them equal. Turns are the model's choice (log 1). -/
def Obligations.PinsAreReadByNothing : Prop :=
  ∀ (s t : State) (a b : Byte),
    ((s.running = .idle → ∀ bytes rest c d, s.inbox = bytes :: rest → decode ⟨.command, bytes⟩ ≠ .ok (.setPins c d)) →
      step s = .next t →
      step { s with inputPin := a, outputPin := b } = .next { t with inputPin := a, outputPin := b }) ∧
    (∀ i : Instr, (∀ c d, i ≠ .setPins c d) → exec i s = .next t →
      exec i { s with inputPin := a, outputPin := b } = .next { t with inputPin := a, outputPin := b }) ∧
    ∀ c d : Byte, exec (.setPins c d) { s with inputPin := a, outputPin := b } = exec (.setPins c d) s
end

