-- ==== Sys2Proof/Laws/Codec.lean ====
section
/-! SUPPORT. The codec: lengths and shapes of prefixes, frames and byte-order helpers. -/

namespace Sys2Proof.Machine

@[simp] theorem bytes_length (b : BusId) : b.bytes.length = 4 := rfl

@[simp] theorem crc8_nil : crc8 [] = 0 := rfl

/-- The fold goes on with the next byte (40_codec.md R131). -/
@[simp] theorem crc8_snoc (s : List Byte) (b : Byte) : crc8 (s ++ [b]) = crc8Update (crc8 s) b := by
  simp [crc8]

theorem overhead_pos (h : Byte) : 3 ≤ overhead h := by
  unfold overhead
  omega

/-- The prefix is as long as the header says (40_codec.md R134). -/
@[simp] theorem framePrefix_length (h : Byte) (rbus sbus : BusId) (sid : Byte) :
    (framePrefix h rbus sbus sid).length = prefixLen h := by
  unfold framePrefix prefixLen overhead
  cases modeBit h <;> cases senderInfoBit h <;> rfl

theorem prefixLen_add (h : Byte) : prefixLen h + 3 = overhead h := by
  have := overhead_pos h
  unfold prefixLen
  omega

@[simp] theorem frameBody_length (dst h : Byte) (content : List Byte) :
    (frameBody dst h content).length = content.length + 3 := by
  simp [frameBody]

/-- A frame is `overhead(h) + n + 1` bytes long (40_codec.md R135). -/
@[simp] theorem encodeFrame_length (dst h : Byte) (rbus sbus : BusId) (sid : Byte) (payload : List Byte) :
    (encodeFrame dst h rbus sbus sid payload).length = overhead h + payload.length + 1 := by
  have := prefixLen_add h
  simp only [encodeFrame, List.length_append, frameBody_length, framePrefix_length, List.length_cons, List.length_nil]
  omega

end Sys2Proof.Machine

namespace Sys2Proof

/-- A 32-bit number is the number its bytes make (20_memory.md R73). -/
@[simp] theorem word32_bytes (v : Word) :
    word32 (v.extractLsb' 0 8) (v.extractLsb' 8 8) (v.extractLsb' 16 8) (v.extractLsb' 24 8) = v := by
  apply BitVec.eq_of_getLsbD_eq
  intro i hi
  simp only [word32, BitVec.getLsbD_append, BitVec.getLsbD_extractLsb']
  by_cases h0 : i < 8
  · simp [h0]
  · by_cases h1 : i - 8 < 8
    · have : 8 + (i - 8) = i := by omega
      simp [h0, h1, this]
    · by_cases h2 : i - 8 - 8 < 8
      · have : 16 + (i - 8 - 8) = i := by omega
        simp [h0, h1, h2, this]
      · have h3 : i - 8 - 8 - 8 < 8 := by omega
        have : 24 + (i - 8 - 8 - 8) = i := by omega
        simp [h0, h1, h2, h3, this]

/-- A 16-bit number is the number its bytes make (20_memory.md R73). -/
@[simp] theorem half16_bytes (v : Half) : half16 (v.extractLsb' 0 8) (v.extractLsb' 8 8) = v := by
  apply BitVec.eq_of_getLsbD_eq
  intro i hi
  simp only [half16, BitVec.getLsbD_append, BitVec.getLsbD_extractLsb']
  by_cases h0 : i < 8
  · simp [h0]
  · have h1 : i - 8 < 8 := by omega
    have : 8 + (i - 8) = i := by omega
    simp [h0, h1, this]

@[simp] theorem splitLast_snoc (l : List Byte) (b : Byte) : splitLast (l ++ [b]) = some (l, b) := by
  induction l with
  | nil => rfl
  | cons a l ih =>
    cases l with
    | nil => rfl
    | cons c l =>
      have ih' : splitLast (c :: (l ++ [b])) = some (c :: l, b) := ih
      simp [splitLast, ih']

/-- Only a sequence with a last byte splits, into what it was (R97: the CRC byte is the last). -/
theorem eq_of_splitLast {bs l : List Byte} {b : Byte} (h : splitLast bs = some (l, b)) : bs = l ++ [b] := by
  induction bs generalizing l with
  | nil => simp [splitLast] at h
  | cons a bs ih =>
    cases bs with
    | nil =>
      simp only [splitLast, Option.some.injEq, Prod.mk.injEq] at h
      obtain ⟨rfl, rfl⟩ := h
      rfl
    | cons c bs =>
      simp only [splitLast, Option.map_eq_some_iff, Prod.mk.injEq] at h
      obtain ⟨⟨l', b'⟩, h1, rfl, rfl⟩ := h
      simp [ih h1]

end Sys2Proof
end

