-- ==== Sys2Proof/Laws/State.lean ====
section
/-! SUPPORT. One lemma per field per update: what each named operation leaves in each field of the state. -/

namespace Sys2Proof.Machine

/-! ### emit -/

@[simp] theorem emit_deviceId (e : Entry) (s : State) : (s.emit e).deviceId = s.deviceId := rfl
@[simp] theorem emit_busId (e : Entry) (s : State) : (s.emit e).busId = s.busId := rfl
@[simp] theorem emit_commMode (e : Entry) (s : State) : (s.emit e).commMode = s.commMode := rfl
@[simp] theorem emit_acknowledge (e : Entry) (s : State) : (s.emit e).acknowledge = s.acknowledge := rfl
@[simp] theorem emit_senderInfoEn (e : Entry) (s : State) : (s.emit e).senderInfoEn = s.senderInfoEn := rfl
@[simp] theorem emit_shared (e : Entry) (s : State) : (s.emit e).shared = s.shared := rfl
@[simp] theorem emit_router (e : Entry) (s : State) : (s.emit e).router = s.router := rfl
@[simp] theorem emit_autoDelete (e : Entry) (s : State) : (s.emit e).autoDelete = s.autoDelete := rfl
@[simp] theorem emit_inputPin (e : Entry) (s : State) : (s.emit e).inputPin = s.inputPin := rfl
@[simp] theorem emit_outputPin (e : Entry) (s : State) : (s.emit e).outputPin = s.outputPin := rfl
@[simp] theorem emit_queue (e : Entry) (s : State) : (s.emit e).queue = s.queue := rfl
@[simp] theorem emit_rxbuf (e : Entry) (s : State) : (s.emit e).rxbuf = s.rxbuf := rfl
@[simp] theorem emit_lpi (e : Entry) (s : State) : (s.emit e).lpi = s.lpi := rfl
@[simp] theorem emit_lpiValid (e : Entry) (s : State) : (s.emit e).lpiValid = s.lpiValid := rfl
@[simp] theorem emit_packetMaxLength (e : Entry) (s : State) : (s.emit e).packetMaxLength = s.packetMaxLength := rfl
@[simp] theorem emit_running (e : Entry) (s : State) : (s.emit e).running = s.running := rfl
@[simp] theorem emit_inbox (e : Entry) (s : State) : (s.emit e).inbox = s.inbox := rfl
@[simp] theorem emit_trace (e : Entry) (s : State) : (s.emit e).trace = s.trace ++ [e] := rfl
@[simp] theorem emit_env (e : Entry) (s : State) : (s.emit e).env = s.env := rfl

/-! ### respond -/

@[simp] theorem respond_deviceId (r : Response) (s : State) : (respond r s).deviceId = s.deviceId := rfl
@[simp] theorem respond_busId (r : Response) (s : State) : (respond r s).busId = s.busId := rfl
@[simp] theorem respond_commMode (r : Response) (s : State) : (respond r s).commMode = s.commMode := rfl
@[simp] theorem respond_acknowledge (r : Response) (s : State) : (respond r s).acknowledge = s.acknowledge := rfl
@[simp] theorem respond_senderInfoEn (r : Response) (s : State) : (respond r s).senderInfoEn = s.senderInfoEn := rfl
@[simp] theorem respond_shared (r : Response) (s : State) : (respond r s).shared = s.shared := rfl
@[simp] theorem respond_router (r : Response) (s : State) : (respond r s).router = s.router := rfl
@[simp] theorem respond_autoDelete (r : Response) (s : State) : (respond r s).autoDelete = s.autoDelete := rfl
@[simp] theorem respond_inputPin (r : Response) (s : State) : (respond r s).inputPin = s.inputPin := rfl
@[simp] theorem respond_outputPin (r : Response) (s : State) : (respond r s).outputPin = s.outputPin := rfl
@[simp] theorem respond_queue (r : Response) (s : State) : (respond r s).queue = s.queue := rfl
@[simp] theorem respond_rxbuf (r : Response) (s : State) : (respond r s).rxbuf = s.rxbuf := rfl
@[simp] theorem respond_lpi (r : Response) (s : State) : (respond r s).lpi = s.lpi := rfl
@[simp] theorem respond_lpiValid (r : Response) (s : State) : (respond r s).lpiValid = s.lpiValid := rfl
@[simp] theorem respond_packetMaxLength (r : Response) (s : State) : (respond r s).packetMaxLength = s.packetMaxLength := rfl
@[simp] theorem respond_running (r : Response) (s : State) : (respond r s).running = s.running := rfl
@[simp] theorem respond_inbox (r : Response) (s : State) : (respond r s).inbox = s.inbox := rfl
@[simp] theorem respond_trace (r : Response) (s : State) : (respond r s).trace = s.trace ++ [.response r] := rfl
@[simp] theorem respond_env (r : Response) (s : State) : (respond r s).env = s.env := rfl

/-! ### sendByte -/

@[simp] theorem sendByte_deviceId (b : Byte) (s : State) : (sendByte b s).deviceId = s.deviceId := rfl
@[simp] theorem sendByte_busId (b : Byte) (s : State) : (sendByte b s).busId = s.busId := rfl
@[simp] theorem sendByte_commMode (b : Byte) (s : State) : (sendByte b s).commMode = s.commMode := rfl
@[simp] theorem sendByte_acknowledge (b : Byte) (s : State) : (sendByte b s).acknowledge = s.acknowledge := rfl
@[simp] theorem sendByte_senderInfoEn (b : Byte) (s : State) : (sendByte b s).senderInfoEn = s.senderInfoEn := rfl
@[simp] theorem sendByte_shared (b : Byte) (s : State) : (sendByte b s).shared = s.shared := rfl
@[simp] theorem sendByte_router (b : Byte) (s : State) : (sendByte b s).router = s.router := rfl
@[simp] theorem sendByte_autoDelete (b : Byte) (s : State) : (sendByte b s).autoDelete = s.autoDelete := rfl
@[simp] theorem sendByte_inputPin (b : Byte) (s : State) : (sendByte b s).inputPin = s.inputPin := rfl
@[simp] theorem sendByte_outputPin (b : Byte) (s : State) : (sendByte b s).outputPin = s.outputPin := rfl
@[simp] theorem sendByte_queue (b : Byte) (s : State) : (sendByte b s).queue = s.queue := rfl
@[simp] theorem sendByte_rxbuf (b : Byte) (s : State) : (sendByte b s).rxbuf = s.rxbuf := rfl
@[simp] theorem sendByte_lpi (b : Byte) (s : State) : (sendByte b s).lpi = s.lpi := rfl
@[simp] theorem sendByte_lpiValid (b : Byte) (s : State) : (sendByte b s).lpiValid = s.lpiValid := rfl
@[simp] theorem sendByte_packetMaxLength (b : Byte) (s : State) : (sendByte b s).packetMaxLength = s.packetMaxLength := rfl
@[simp] theorem sendByte_running (b : Byte) (s : State) : (sendByte b s).running = s.running := rfl
@[simp] theorem sendByte_inbox (b : Byte) (s : State) : (sendByte b s).inbox = s.inbox := rfl
@[simp] theorem sendByte_trace (b : Byte) (s : State) : (sendByte b s).trace = s.trace ++ [.sendByte b] := rfl
@[simp] theorem sendByte_env (b : Byte) (s : State) : (sendByte b s).env = s.env := rfl

/-! ### sendResponse -/

@[simp] theorem sendResponse_deviceId (sym : Byte) (s : State) : (sendResponse sym s).deviceId = s.deviceId := rfl
@[simp] theorem sendResponse_busId (sym : Byte) (s : State) : (sendResponse sym s).busId = s.busId := rfl
@[simp] theorem sendResponse_commMode (sym : Byte) (s : State) : (sendResponse sym s).commMode = s.commMode := rfl
@[simp] theorem sendResponse_acknowledge (sym : Byte) (s : State) : (sendResponse sym s).acknowledge = s.acknowledge := rfl
@[simp] theorem sendResponse_senderInfoEn (sym : Byte) (s : State) : (sendResponse sym s).senderInfoEn = s.senderInfoEn := rfl
@[simp] theorem sendResponse_shared (sym : Byte) (s : State) : (sendResponse sym s).shared = s.shared := rfl
@[simp] theorem sendResponse_router (sym : Byte) (s : State) : (sendResponse sym s).router = s.router := rfl
@[simp] theorem sendResponse_autoDelete (sym : Byte) (s : State) : (sendResponse sym s).autoDelete = s.autoDelete := rfl
@[simp] theorem sendResponse_inputPin (sym : Byte) (s : State) : (sendResponse sym s).inputPin = s.inputPin := rfl
@[simp] theorem sendResponse_outputPin (sym : Byte) (s : State) : (sendResponse sym s).outputPin = s.outputPin := rfl
@[simp] theorem sendResponse_queue (sym : Byte) (s : State) : (sendResponse sym s).queue = s.queue := rfl
@[simp] theorem sendResponse_rxbuf (sym : Byte) (s : State) : (sendResponse sym s).rxbuf = s.rxbuf := rfl
@[simp] theorem sendResponse_lpi (sym : Byte) (s : State) : (sendResponse sym s).lpi = s.lpi := rfl
@[simp] theorem sendResponse_lpiValid (sym : Byte) (s : State) : (sendResponse sym s).lpiValid = s.lpiValid := rfl
@[simp] theorem sendResponse_packetMaxLength (sym : Byte) (s : State) : (sendResponse sym s).packetMaxLength = s.packetMaxLength := rfl
@[simp] theorem sendResponse_running (sym : Byte) (s : State) : (sendResponse sym s).running = s.running := rfl
@[simp] theorem sendResponse_inbox (sym : Byte) (s : State) : (sendResponse sym s).inbox = s.inbox := rfl
@[simp] theorem sendResponse_trace (sym : Byte) (s : State) : (sendResponse sym s).trace = s.trace ++ [.sendResponse sym] := rfl
@[simp] theorem sendResponse_env (sym : Byte) (s : State) : (sendResponse sym s).env = s.env := rfl

/-! ### seed -/

@[simp] theorem seed_deviceId (s : State) : (seed s).deviceId = s.deviceId := rfl
@[simp] theorem seed_busId (s : State) : (seed s).busId = s.busId := rfl
@[simp] theorem seed_commMode (s : State) : (seed s).commMode = s.commMode := rfl
@[simp] theorem seed_acknowledge (s : State) : (seed s).acknowledge = s.acknowledge := rfl
@[simp] theorem seed_senderInfoEn (s : State) : (seed s).senderInfoEn = s.senderInfoEn := rfl
@[simp] theorem seed_shared (s : State) : (seed s).shared = s.shared := rfl
@[simp] theorem seed_router (s : State) : (seed s).router = s.router := rfl
@[simp] theorem seed_autoDelete (s : State) : (seed s).autoDelete = s.autoDelete := rfl
@[simp] theorem seed_inputPin (s : State) : (seed s).inputPin = s.inputPin := rfl
@[simp] theorem seed_outputPin (s : State) : (seed s).outputPin = s.outputPin := rfl
@[simp] theorem seed_queue (s : State) : (seed s).queue = s.queue := rfl
@[simp] theorem seed_rxbuf (s : State) : (seed s).rxbuf = s.rxbuf := rfl
@[simp] theorem seed_lpi (s : State) : (seed s).lpi = s.lpi := rfl
@[simp] theorem seed_lpiValid (s : State) : (seed s).lpiValid = s.lpiValid := rfl
@[simp] theorem seed_packetMaxLength (s : State) : (seed s).packetMaxLength = s.packetMaxLength := rfl
@[simp] theorem seed_running (s : State) : (seed s).running = s.running := rfl
@[simp] theorem seed_inbox (s : State) : (seed s).inbox = s.inbox := rfl
@[simp] theorem seed_trace (s : State) : (seed s).trace = s.trace ++ [.seed] := rfl
@[simp] theorem seed_env (s : State) : (seed s).env = s.env := rfl

/-! ### delay -/

@[simp] theorem delay_deviceId (us : Nat) (s : State) : (delay us s).deviceId = s.deviceId := rfl
@[simp] theorem delay_busId (us : Nat) (s : State) : (delay us s).busId = s.busId := rfl
@[simp] theorem delay_commMode (us : Nat) (s : State) : (delay us s).commMode = s.commMode := rfl
@[simp] theorem delay_acknowledge (us : Nat) (s : State) : (delay us s).acknowledge = s.acknowledge := rfl
@[simp] theorem delay_senderInfoEn (us : Nat) (s : State) : (delay us s).senderInfoEn = s.senderInfoEn := rfl
@[simp] theorem delay_shared (us : Nat) (s : State) : (delay us s).shared = s.shared := rfl
@[simp] theorem delay_router (us : Nat) (s : State) : (delay us s).router = s.router := rfl
@[simp] theorem delay_autoDelete (us : Nat) (s : State) : (delay us s).autoDelete = s.autoDelete := rfl
@[simp] theorem delay_inputPin (us : Nat) (s : State) : (delay us s).inputPin = s.inputPin := rfl
@[simp] theorem delay_outputPin (us : Nat) (s : State) : (delay us s).outputPin = s.outputPin := rfl
@[simp] theorem delay_queue (us : Nat) (s : State) : (delay us s).queue = s.queue := rfl
@[simp] theorem delay_rxbuf (us : Nat) (s : State) : (delay us s).rxbuf = s.rxbuf := rfl
@[simp] theorem delay_lpi (us : Nat) (s : State) : (delay us s).lpi = s.lpi := rfl
@[simp] theorem delay_lpiValid (us : Nat) (s : State) : (delay us s).lpiValid = s.lpiValid := rfl
@[simp] theorem delay_packetMaxLength (us : Nat) (s : State) : (delay us s).packetMaxLength = s.packetMaxLength := rfl
@[simp] theorem delay_running (us : Nat) (s : State) : (delay us s).running = s.running := rfl
@[simp] theorem delay_inbox (us : Nat) (s : State) : (delay us s).inbox = s.inbox := rfl
@[simp] theorem delay_trace (us : Nat) (s : State) : (delay us s).trace = s.trace ++ [.delay us] := rfl
@[simp] theorem delay_env (us : Nat) (s : State) : (delay us s).env = { s.env with time := s.env.time + us } := rfl

/-! ### raiseError -/

@[simp] theorem raiseError_deviceId (k : ErrorKind) (d : Half) (s : State) : (raiseError k d s).deviceId = s.deviceId := rfl
@[simp] theorem raiseError_busId (k : ErrorKind) (d : Half) (s : State) : (raiseError k d s).busId = s.busId := rfl
@[simp] theorem raiseError_commMode (k : ErrorKind) (d : Half) (s : State) : (raiseError k d s).commMode = s.commMode := rfl
@[simp] theorem raiseError_acknowledge (k : ErrorKind) (d : Half) (s : State) : (raiseError k d s).acknowledge = s.acknowledge := rfl
@[simp] theorem raiseError_senderInfoEn (k : ErrorKind) (d : Half) (s : State) : (raiseError k d s).senderInfoEn = s.senderInfoEn := rfl
@[simp] theorem raiseError_shared (k : ErrorKind) (d : Half) (s : State) : (raiseError k d s).shared = s.shared := rfl
@[simp] theorem raiseError_router (k : ErrorKind) (d : Half) (s : State) : (raiseError k d s).router = s.router := rfl
@[simp] theorem raiseError_autoDelete (k : ErrorKind) (d : Half) (s : State) : (raiseError k d s).autoDelete = s.autoDelete := rfl
@[simp] theorem raiseError_inputPin (k : ErrorKind) (d : Half) (s : State) : (raiseError k d s).inputPin = s.inputPin := rfl
@[simp] theorem raiseError_outputPin (k : ErrorKind) (d : Half) (s : State) : (raiseError k d s).outputPin = s.outputPin := rfl
@[simp] theorem raiseError_queue (k : ErrorKind) (d : Half) (s : State) : (raiseError k d s).queue = s.queue := rfl
@[simp] theorem raiseError_rxbuf (k : ErrorKind) (d : Half) (s : State) : (raiseError k d s).rxbuf = s.rxbuf := rfl
@[simp] theorem raiseError_lpi (k : ErrorKind) (d : Half) (s : State) : (raiseError k d s).lpi = s.lpi := rfl
@[simp] theorem raiseError_lpiValid (k : ErrorKind) (d : Half) (s : State) : (raiseError k d s).lpiValid = s.lpiValid := rfl
@[simp] theorem raiseError_packetMaxLength (k : ErrorKind) (d : Half) (s : State) : (raiseError k d s).packetMaxLength = s.packetMaxLength := rfl
@[simp] theorem raiseError_running (k : ErrorKind) (d : Half) (s : State) : (raiseError k d s).running = s.running := rfl
@[simp] theorem raiseError_inbox (k : ErrorKind) (d : Half) (s : State) : (raiseError k d s).inbox = s.inbox := rfl
@[simp] theorem raiseError_trace (k : ErrorKind) (d : Half) (s : State) : (raiseError k d s).trace = s.trace ++ [.errevt k d] := rfl
@[simp] theorem raiseError_env (k : ErrorKind) (d : Half) (s : State) : (raiseError k d s).env = s.env := rfl

/-! ### raiseReceive -/

@[simp] theorem raiseReceive_deviceId (off len : Byte) (info : PacketInfo) (s : State) : (raiseReceive off len info s).deviceId = s.deviceId := rfl
@[simp] theorem raiseReceive_busId (off len : Byte) (info : PacketInfo) (s : State) : (raiseReceive off len info s).busId = s.busId := rfl
@[simp] theorem raiseReceive_commMode (off len : Byte) (info : PacketInfo) (s : State) : (raiseReceive off len info s).commMode = s.commMode := rfl
@[simp] theorem raiseReceive_acknowledge (off len : Byte) (info : PacketInfo) (s : State) : (raiseReceive off len info s).acknowledge = s.acknowledge := rfl
@[simp] theorem raiseReceive_senderInfoEn (off len : Byte) (info : PacketInfo) (s : State) : (raiseReceive off len info s).senderInfoEn = s.senderInfoEn := rfl
@[simp] theorem raiseReceive_shared (off len : Byte) (info : PacketInfo) (s : State) : (raiseReceive off len info s).shared = s.shared := rfl
@[simp] theorem raiseReceive_router (off len : Byte) (info : PacketInfo) (s : State) : (raiseReceive off len info s).router = s.router := rfl
@[simp] theorem raiseReceive_autoDelete (off len : Byte) (info : PacketInfo) (s : State) : (raiseReceive off len info s).autoDelete = s.autoDelete := rfl
@[simp] theorem raiseReceive_inputPin (off len : Byte) (info : PacketInfo) (s : State) : (raiseReceive off len info s).inputPin = s.inputPin := rfl
@[simp] theorem raiseReceive_outputPin (off len : Byte) (info : PacketInfo) (s : State) : (raiseReceive off len info s).outputPin = s.outputPin := rfl
@[simp] theorem raiseReceive_queue (off len : Byte) (info : PacketInfo) (s : State) : (raiseReceive off len info s).queue = s.queue := rfl
@[simp] theorem raiseReceive_rxbuf (off len : Byte) (info : PacketInfo) (s : State) : (raiseReceive off len info s).rxbuf = s.rxbuf := rfl
@[simp] theorem raiseReceive_lpi (off len : Byte) (info : PacketInfo) (s : State) : (raiseReceive off len info s).lpi = s.lpi := rfl
@[simp] theorem raiseReceive_lpiValid (off len : Byte) (info : PacketInfo) (s : State) : (raiseReceive off len info s).lpiValid = s.lpiValid := rfl
@[simp] theorem raiseReceive_packetMaxLength (off len : Byte) (info : PacketInfo) (s : State) : (raiseReceive off len info s).packetMaxLength = s.packetMaxLength := rfl
@[simp] theorem raiseReceive_running (off len : Byte) (info : PacketInfo) (s : State) : (raiseReceive off len info s).running = s.running := rfl
@[simp] theorem raiseReceive_inbox (off len : Byte) (info : PacketInfo) (s : State) : (raiseReceive off len info s).inbox = s.inbox := rfl
@[simp] theorem raiseReceive_trace (off len : Byte) (info : PacketInfo) (s : State) : (raiseReceive off len info s).trace = s.trace ++ [.rxevt off len info] := rfl
@[simp] theorem raiseReceive_env (off len : Byte) (info : PacketInfo) (s : State) : (raiseReceive off len info s).env = s.env := rfl

/-! ### setSlot -/

@[simp] theorem setSlot_deviceId (i : Nat) (p : Slot) (s : State) : (setSlot i p s).deviceId = s.deviceId := rfl
@[simp] theorem setSlot_busId (i : Nat) (p : Slot) (s : State) : (setSlot i p s).busId = s.busId := rfl
@[simp] theorem setSlot_commMode (i : Nat) (p : Slot) (s : State) : (setSlot i p s).commMode = s.commMode := rfl
@[simp] theorem setSlot_acknowledge (i : Nat) (p : Slot) (s : State) : (setSlot i p s).acknowledge = s.acknowledge := rfl
@[simp] theorem setSlot_senderInfoEn (i : Nat) (p : Slot) (s : State) : (setSlot i p s).senderInfoEn = s.senderInfoEn := rfl
@[simp] theorem setSlot_shared (i : Nat) (p : Slot) (s : State) : (setSlot i p s).shared = s.shared := rfl
@[simp] theorem setSlot_router (i : Nat) (p : Slot) (s : State) : (setSlot i p s).router = s.router := rfl
@[simp] theorem setSlot_autoDelete (i : Nat) (p : Slot) (s : State) : (setSlot i p s).autoDelete = s.autoDelete := rfl
@[simp] theorem setSlot_inputPin (i : Nat) (p : Slot) (s : State) : (setSlot i p s).inputPin = s.inputPin := rfl
@[simp] theorem setSlot_outputPin (i : Nat) (p : Slot) (s : State) : (setSlot i p s).outputPin = s.outputPin := rfl
@[simp] theorem setSlot_queue (i : Nat) (p : Slot) (s : State) : (setSlot i p s).queue = s.queue.set i p := rfl
@[simp] theorem setSlot_rxbuf (i : Nat) (p : Slot) (s : State) : (setSlot i p s).rxbuf = s.rxbuf := rfl
@[simp] theorem setSlot_lpi (i : Nat) (p : Slot) (s : State) : (setSlot i p s).lpi = s.lpi := rfl
@[simp] theorem setSlot_lpiValid (i : Nat) (p : Slot) (s : State) : (setSlot i p s).lpiValid = s.lpiValid := rfl
@[simp] theorem setSlot_packetMaxLength (i : Nat) (p : Slot) (s : State) : (setSlot i p s).packetMaxLength = s.packetMaxLength := rfl
@[simp] theorem setSlot_running (i : Nat) (p : Slot) (s : State) : (setSlot i p s).running = s.running := rfl
@[simp] theorem setSlot_inbox (i : Nat) (p : Slot) (s : State) : (setSlot i p s).inbox = s.inbox := rfl
@[simp] theorem setSlot_trace (i : Nat) (p : Slot) (s : State) : (setSlot i p s).trace = s.trace := rfl
@[simp] theorem setSlot_env (i : Nat) (p : Slot) (s : State) : (setSlot i p s).env = s.env := rfl

/-! ### removeSlot -/

@[simp] theorem removeSlot_deviceId (i : Nat) (s : State) : (removeSlot i s).deviceId = s.deviceId := rfl
@[simp] theorem removeSlot_busId (i : Nat) (s : State) : (removeSlot i s).busId = s.busId := rfl
@[simp] theorem removeSlot_commMode (i : Nat) (s : State) : (removeSlot i s).commMode = s.commMode := rfl
@[simp] theorem removeSlot_acknowledge (i : Nat) (s : State) : (removeSlot i s).acknowledge = s.acknowledge := rfl
@[simp] theorem removeSlot_senderInfoEn (i : Nat) (s : State) : (removeSlot i s).senderInfoEn = s.senderInfoEn := rfl
@[simp] theorem removeSlot_shared (i : Nat) (s : State) : (removeSlot i s).shared = s.shared := rfl
@[simp] theorem removeSlot_router (i : Nat) (s : State) : (removeSlot i s).router = s.router := rfl
@[simp] theorem removeSlot_autoDelete (i : Nat) (s : State) : (removeSlot i s).autoDelete = s.autoDelete := rfl
@[simp] theorem removeSlot_inputPin (i : Nat) (s : State) : (removeSlot i s).inputPin = s.inputPin := rfl
@[simp] theorem removeSlot_outputPin (i : Nat) (s : State) : (removeSlot i s).outputPin = s.outputPin := rfl
@[simp] theorem removeSlot_queue (i : Nat) (s : State) : (removeSlot i s).queue = s.queue.set i Slot.empty := rfl
@[simp] theorem removeSlot_rxbuf (i : Nat) (s : State) : (removeSlot i s).rxbuf = s.rxbuf := rfl
@[simp] theorem removeSlot_lpi (i : Nat) (s : State) : (removeSlot i s).lpi = s.lpi := rfl
@[simp] theorem removeSlot_lpiValid (i : Nat) (s : State) : (removeSlot i s).lpiValid = s.lpiValid := rfl
@[simp] theorem removeSlot_packetMaxLength (i : Nat) (s : State) : (removeSlot i s).packetMaxLength = s.packetMaxLength := rfl
@[simp] theorem removeSlot_running (i : Nat) (s : State) : (removeSlot i s).running = s.running := rfl
@[simp] theorem removeSlot_inbox (i : Nat) (s : State) : (removeSlot i s).inbox = s.inbox := rfl
@[simp] theorem removeSlot_trace (i : Nat) (s : State) : (removeSlot i s).trace = s.trace := rfl
@[simp] theorem removeSlot_env (i : Nat) (s : State) : (removeSlot i s).env = s.env := rfl

/-! ### storeRx -/

@[simp] theorem storeRx_deviceId (i : Nat) (b : Byte) (s : State) : (storeRx i b s).deviceId = s.deviceId := rfl
@[simp] theorem storeRx_busId (i : Nat) (b : Byte) (s : State) : (storeRx i b s).busId = s.busId := rfl
@[simp] theorem storeRx_commMode (i : Nat) (b : Byte) (s : State) : (storeRx i b s).commMode = s.commMode := rfl
@[simp] theorem storeRx_acknowledge (i : Nat) (b : Byte) (s : State) : (storeRx i b s).acknowledge = s.acknowledge := rfl
@[simp] theorem storeRx_senderInfoEn (i : Nat) (b : Byte) (s : State) : (storeRx i b s).senderInfoEn = s.senderInfoEn := rfl
@[simp] theorem storeRx_shared (i : Nat) (b : Byte) (s : State) : (storeRx i b s).shared = s.shared := rfl
@[simp] theorem storeRx_router (i : Nat) (b : Byte) (s : State) : (storeRx i b s).router = s.router := rfl
@[simp] theorem storeRx_autoDelete (i : Nat) (b : Byte) (s : State) : (storeRx i b s).autoDelete = s.autoDelete := rfl
@[simp] theorem storeRx_inputPin (i : Nat) (b : Byte) (s : State) : (storeRx i b s).inputPin = s.inputPin := rfl
@[simp] theorem storeRx_outputPin (i : Nat) (b : Byte) (s : State) : (storeRx i b s).outputPin = s.outputPin := rfl
@[simp] theorem storeRx_queue (i : Nat) (b : Byte) (s : State) : (storeRx i b s).queue = s.queue := rfl
@[simp] theorem storeRx_rxbuf (i : Nat) (b : Byte) (s : State) : (storeRx i b s).rxbuf = s.rxbuf.write i b := rfl
@[simp] theorem storeRx_lpi (i : Nat) (b : Byte) (s : State) : (storeRx i b s).lpi = s.lpi := rfl
@[simp] theorem storeRx_lpiValid (i : Nat) (b : Byte) (s : State) : (storeRx i b s).lpiValid = s.lpiValid := rfl
@[simp] theorem storeRx_packetMaxLength (i : Nat) (b : Byte) (s : State) : (storeRx i b s).packetMaxLength = s.packetMaxLength := rfl
@[simp] theorem storeRx_running (i : Nat) (b : Byte) (s : State) : (storeRx i b s).running = s.running := rfl
@[simp] theorem storeRx_inbox (i : Nat) (b : Byte) (s : State) : (storeRx i b s).inbox = s.inbox := rfl
@[simp] theorem storeRx_trace (i : Nat) (b : Byte) (s : State) : (storeRx i b s).trace = s.trace := rfl
@[simp] theorem storeRx_env (i : Nat) (b : Byte) (s : State) : (storeRx i b s).env = s.env := rfl

/-! ### now -/

@[simp] theorem now_deviceId (s : State) : (now s).2.deviceId = s.deviceId := rfl
@[simp] theorem now_busId (s : State) : (now s).2.busId = s.busId := rfl
@[simp] theorem now_commMode (s : State) : (now s).2.commMode = s.commMode := rfl
@[simp] theorem now_acknowledge (s : State) : (now s).2.acknowledge = s.acknowledge := rfl
@[simp] theorem now_senderInfoEn (s : State) : (now s).2.senderInfoEn = s.senderInfoEn := rfl
@[simp] theorem now_shared (s : State) : (now s).2.shared = s.shared := rfl
@[simp] theorem now_router (s : State) : (now s).2.router = s.router := rfl
@[simp] theorem now_autoDelete (s : State) : (now s).2.autoDelete = s.autoDelete := rfl
@[simp] theorem now_inputPin (s : State) : (now s).2.inputPin = s.inputPin := rfl
@[simp] theorem now_outputPin (s : State) : (now s).2.outputPin = s.outputPin := rfl
@[simp] theorem now_queue (s : State) : (now s).2.queue = s.queue := rfl
@[simp] theorem now_rxbuf (s : State) : (now s).2.rxbuf = s.rxbuf := rfl
@[simp] theorem now_lpi (s : State) : (now s).2.lpi = s.lpi := rfl
@[simp] theorem now_lpiValid (s : State) : (now s).2.lpiValid = s.lpiValid := rfl
@[simp] theorem now_packetMaxLength (s : State) : (now s).2.packetMaxLength = s.packetMaxLength := rfl
@[simp] theorem now_running (s : State) : (now s).2.running = s.running := rfl
@[simp] theorem now_inbox (s : State) : (now s).2.inbox = s.inbox := rfl
@[simp] theorem now_trace (s : State) : (now s).2.trace = s.trace ++ [.now (now s).1] := rfl
@[simp] theorem now_env (s : State) : (now s).2.env = passTime s.env := rfl

/-! ### canStart -/

@[simp] theorem canStart_deviceId (s : State) : (canStart s).2.deviceId = s.deviceId := by
  unfold canStart; split <;> rfl
@[simp] theorem canStart_busId (s : State) : (canStart s).2.busId = s.busId := by
  unfold canStart; split <;> rfl
@[simp] theorem canStart_commMode (s : State) : (canStart s).2.commMode = s.commMode := by
  unfold canStart; split <;> rfl
@[simp] theorem canStart_acknowledge (s : State) : (canStart s).2.acknowledge = s.acknowledge := by
  unfold canStart; split <;> rfl
@[simp] theorem canStart_senderInfoEn (s : State) : (canStart s).2.senderInfoEn = s.senderInfoEn := by
  unfold canStart; split <;> rfl
@[simp] theorem canStart_shared (s : State) : (canStart s).2.shared = s.shared := by
  unfold canStart; split <;> rfl
@[simp] theorem canStart_router (s : State) : (canStart s).2.router = s.router := by
  unfold canStart; split <;> rfl
@[simp] theorem canStart_autoDelete (s : State) : (canStart s).2.autoDelete = s.autoDelete := by
  unfold canStart; split <;> rfl
@[simp] theorem canStart_inputPin (s : State) : (canStart s).2.inputPin = s.inputPin := by
  unfold canStart; split <;> rfl
@[simp] theorem canStart_outputPin (s : State) : (canStart s).2.outputPin = s.outputPin := by
  unfold canStart; split <;> rfl
@[simp] theorem canStart_queue (s : State) : (canStart s).2.queue = s.queue := by
  unfold canStart; split <;> rfl
@[simp] theorem canStart_rxbuf (s : State) : (canStart s).2.rxbuf = s.rxbuf := by
  unfold canStart; split <;> rfl
@[simp] theorem canStart_lpi (s : State) : (canStart s).2.lpi = s.lpi := by
  unfold canStart; split <;> rfl
@[simp] theorem canStart_lpiValid (s : State) : (canStart s).2.lpiValid = s.lpiValid := by
  unfold canStart; split <;> rfl
@[simp] theorem canStart_packetMaxLength (s : State) : (canStart s).2.packetMaxLength = s.packetMaxLength := by
  unfold canStart; split <;> rfl
@[simp] theorem canStart_running (s : State) : (canStart s).2.running = s.running := by
  unfold canStart; split <;> rfl
@[simp] theorem canStart_inbox (s : State) : (canStart s).2.inbox = s.inbox := by
  unfold canStart; split <;> rfl
@[simp] theorem canStart_trace (s : State) : (canStart s).2.trace = s.trace ++ [.canStart (canStart s).1] := by
  unfold canStart; split <;> rfl
@[simp] theorem canStart_time (s : State) : (canStart s).2.env.time = s.env.time := by
  unfold canStart; split <;> rfl

/-! ### receiveByte -/

@[simp] theorem receiveByte_deviceId (s : State) : (receiveByte s).2.deviceId = s.deviceId := by
  unfold receiveByte; split <;> rfl
@[simp] theorem receiveByte_busId (s : State) : (receiveByte s).2.busId = s.busId := by
  unfold receiveByte; split <;> rfl
@[simp] theorem receiveByte_commMode (s : State) : (receiveByte s).2.commMode = s.commMode := by
  unfold receiveByte; split <;> rfl
@[simp] theorem receiveByte_acknowledge (s : State) : (receiveByte s).2.acknowledge = s.acknowledge := by
  unfold receiveByte; split <;> rfl
@[simp] theorem receiveByte_senderInfoEn (s : State) : (receiveByte s).2.senderInfoEn = s.senderInfoEn := by
  unfold receiveByte; split <;> rfl
@[simp] theorem receiveByte_shared (s : State) : (receiveByte s).2.shared = s.shared := by
  unfold receiveByte; split <;> rfl
@[simp] theorem receiveByte_router (s : State) : (receiveByte s).2.router = s.router := by
  unfold receiveByte; split <;> rfl
@[simp] theorem receiveByte_autoDelete (s : State) : (receiveByte s).2.autoDelete = s.autoDelete := by
  unfold receiveByte; split <;> rfl
@[simp] theorem receiveByte_inputPin (s : State) : (receiveByte s).2.inputPin = s.inputPin := by
  unfold receiveByte; split <;> rfl
@[simp] theorem receiveByte_outputPin (s : State) : (receiveByte s).2.outputPin = s.outputPin := by
  unfold receiveByte; split <;> rfl
@[simp] theorem receiveByte_queue (s : State) : (receiveByte s).2.queue = s.queue := by
  unfold receiveByte; split <;> rfl
@[simp] theorem receiveByte_rxbuf (s : State) : (receiveByte s).2.rxbuf = s.rxbuf := by
  unfold receiveByte; split <;> rfl
@[simp] theorem receiveByte_lpi (s : State) : (receiveByte s).2.lpi = s.lpi := by
  unfold receiveByte; split <;> rfl
@[simp] theorem receiveByte_lpiValid (s : State) : (receiveByte s).2.lpiValid = s.lpiValid := by
  unfold receiveByte; split <;> rfl
@[simp] theorem receiveByte_packetMaxLength (s : State) : (receiveByte s).2.packetMaxLength = s.packetMaxLength := by
  unfold receiveByte; split <;> rfl
@[simp] theorem receiveByte_running (s : State) : (receiveByte s).2.running = s.running := by
  unfold receiveByte; split <;> rfl
@[simp] theorem receiveByte_inbox (s : State) : (receiveByte s).2.inbox = s.inbox := by
  unfold receiveByte; split <;> rfl
@[simp] theorem receiveByte_trace (s : State) : (receiveByte s).2.trace = s.trace ++ [.receiveByte (receiveByte s).1] := by
  unfold receiveByte; split <;> rfl
@[simp] theorem receiveByte_time (s : State) : (receiveByte s).2.env.time = s.env.time := by
  unfold receiveByte; split <;> rfl

/-! ### receiveResponse -/

@[simp] theorem receiveResponse_deviceId (s : State) : (receiveResponse s).2.deviceId = s.deviceId := by
  unfold receiveResponse; split <;> rfl
@[simp] theorem receiveResponse_busId (s : State) : (receiveResponse s).2.busId = s.busId := by
  unfold receiveResponse; split <;> rfl
@[simp] theorem receiveResponse_commMode (s : State) : (receiveResponse s).2.commMode = s.commMode := by
  unfold receiveResponse; split <;> rfl
@[simp] theorem receiveResponse_acknowledge (s : State) : (receiveResponse s).2.acknowledge = s.acknowledge := by
  unfold receiveResponse; split <;> rfl
@[simp] theorem receiveResponse_senderInfoEn (s : State) : (receiveResponse s).2.senderInfoEn = s.senderInfoEn := by
  unfold receiveResponse; split <;> rfl
@[simp] theorem receiveResponse_shared (s : State) : (receiveResponse s).2.shared = s.shared := by
  unfold receiveResponse; split <;> rfl
@[simp] theorem receiveResponse_router (s : State) : (receiveResponse s).2.router = s.router := by
  unfold receiveResponse; split <;> rfl
@[simp] theorem receiveResponse_autoDelete (s : State) : (receiveResponse s).2.autoDelete = s.autoDelete := by
  unfold receiveResponse; split <;> rfl
@[simp] theorem receiveResponse_inputPin (s : State) : (receiveResponse s).2.inputPin = s.inputPin := by
  unfold receiveResponse; split <;> rfl
@[simp] theorem receiveResponse_outputPin (s : State) : (receiveResponse s).2.outputPin = s.outputPin := by
  unfold receiveResponse; split <;> rfl
@[simp] theorem receiveResponse_queue (s : State) : (receiveResponse s).2.queue = s.queue := by
  unfold receiveResponse; split <;> rfl
@[simp] theorem receiveResponse_rxbuf (s : State) : (receiveResponse s).2.rxbuf = s.rxbuf := by
  unfold receiveResponse; split <;> rfl
@[simp] theorem receiveResponse_lpi (s : State) : (receiveResponse s).2.lpi = s.lpi := by
  unfold receiveResponse; split <;> rfl
@[simp] theorem receiveResponse_lpiValid (s : State) : (receiveResponse s).2.lpiValid = s.lpiValid := by
  unfold receiveResponse; split <;> rfl
@[simp] theorem receiveResponse_packetMaxLength (s : State) : (receiveResponse s).2.packetMaxLength = s.packetMaxLength := by
  unfold receiveResponse; split <;> rfl
@[simp] theorem receiveResponse_running (s : State) : (receiveResponse s).2.running = s.running := by
  unfold receiveResponse; split <;> rfl
@[simp] theorem receiveResponse_inbox (s : State) : (receiveResponse s).2.inbox = s.inbox := by
  unfold receiveResponse; split <;> rfl
@[simp] theorem receiveResponse_trace (s : State) : (receiveResponse s).2.trace = s.trace ++ [.receiveResponse (receiveResponse s).1] := by
  unfold receiveResponse; split <;> rfl
@[simp] theorem receiveResponse_time (s : State) : (receiveResponse s).2.env.time = s.env.time := by
  unfold receiveResponse; split <;> rfl

/-! ### random -/

@[simp] theorem random_deviceId (n : Nat) (s : State) : (random n s).2.deviceId = s.deviceId := by
  unfold random; split <;> rfl
@[simp] theorem random_busId (n : Nat) (s : State) : (random n s).2.busId = s.busId := by
  unfold random; split <;> rfl
@[simp] theorem random_commMode (n : Nat) (s : State) : (random n s).2.commMode = s.commMode := by
  unfold random; split <;> rfl
@[simp] theorem random_acknowledge (n : Nat) (s : State) : (random n s).2.acknowledge = s.acknowledge := by
  unfold random; split <;> rfl
@[simp] theorem random_senderInfoEn (n : Nat) (s : State) : (random n s).2.senderInfoEn = s.senderInfoEn := by
  unfold random; split <;> rfl
@[simp] theorem random_shared (n : Nat) (s : State) : (random n s).2.shared = s.shared := by
  unfold random; split <;> rfl
@[simp] theorem random_router (n : Nat) (s : State) : (random n s).2.router = s.router := by
  unfold random; split <;> rfl
@[simp] theorem random_autoDelete (n : Nat) (s : State) : (random n s).2.autoDelete = s.autoDelete := by
  unfold random; split <;> rfl
@[simp] theorem random_inputPin (n : Nat) (s : State) : (random n s).2.inputPin = s.inputPin := by
  unfold random; split <;> rfl
@[simp] theorem random_outputPin (n : Nat) (s : State) : (random n s).2.outputPin = s.outputPin := by
  unfold random; split <;> rfl
@[simp] theorem random_queue (n : Nat) (s : State) : (random n s).2.queue = s.queue := by
  unfold random; split <;> rfl
@[simp] theorem random_rxbuf (n : Nat) (s : State) : (random n s).2.rxbuf = s.rxbuf := by
  unfold random; split <;> rfl
@[simp] theorem random_lpi (n : Nat) (s : State) : (random n s).2.lpi = s.lpi := by
  unfold random; split <;> rfl
@[simp] theorem random_lpiValid (n : Nat) (s : State) : (random n s).2.lpiValid = s.lpiValid := by
  unfold random; split <;> rfl
@[simp] theorem random_packetMaxLength (n : Nat) (s : State) : (random n s).2.packetMaxLength = s.packetMaxLength := by
  unfold random; split <;> rfl
@[simp] theorem random_running (n : Nat) (s : State) : (random n s).2.running = s.running := by
  unfold random; split <;> rfl
@[simp] theorem random_inbox (n : Nat) (s : State) : (random n s).2.inbox = s.inbox := by
  unfold random; split <;> rfl
@[simp] theorem random_trace (n : Nat) (s : State) : (random n s).2.trace = s.trace ++ [.random n (random n s).1] := by
  unfold random; split <;> rfl
@[simp] theorem random_time (n : Nat) (s : State) : (random n s).2.env.time = s.env.time := by
  unfold random; split <;> rfl

/-! ### Equal own parts have equal fields -/

theorem deviceId_of_own {s t : State} (h : t.own = s.own) : t.deviceId = s.deviceId :=
  show t.own.deviceId = s.own.deviceId by rw [h]
theorem busId_of_own {s t : State} (h : t.own = s.own) : t.busId = s.busId :=
  show t.own.busId = s.own.busId by rw [h]
theorem commMode_of_own {s t : State} (h : t.own = s.own) : t.commMode = s.commMode :=
  show t.own.commMode = s.own.commMode by rw [h]
theorem acknowledge_of_own {s t : State} (h : t.own = s.own) : t.acknowledge = s.acknowledge :=
  show t.own.acknowledge = s.own.acknowledge by rw [h]
theorem senderInfoEn_of_own {s t : State} (h : t.own = s.own) : t.senderInfoEn = s.senderInfoEn :=
  show t.own.senderInfoEn = s.own.senderInfoEn by rw [h]
theorem shared_of_own {s t : State} (h : t.own = s.own) : t.shared = s.shared :=
  show t.own.shared = s.own.shared by rw [h]
theorem router_of_own {s t : State} (h : t.own = s.own) : t.router = s.router :=
  show t.own.router = s.own.router by rw [h]
theorem autoDelete_of_own {s t : State} (h : t.own = s.own) : t.autoDelete = s.autoDelete :=
  show t.own.autoDelete = s.own.autoDelete by rw [h]
theorem inputPin_of_own {s t : State} (h : t.own = s.own) : t.inputPin = s.inputPin :=
  show t.own.inputPin = s.own.inputPin by rw [h]
theorem outputPin_of_own {s t : State} (h : t.own = s.own) : t.outputPin = s.outputPin :=
  show t.own.outputPin = s.own.outputPin by rw [h]
theorem queue_of_own {s t : State} (h : t.own = s.own) : t.queue = s.queue :=
  show t.own.queue = s.own.queue by rw [h]
theorem rxbuf_of_own {s t : State} (h : t.own = s.own) : t.rxbuf = s.rxbuf :=
  show t.own.rxbuf = s.own.rxbuf by rw [h]
theorem lpi_of_own {s t : State} (h : t.own = s.own) : t.lpi = s.lpi :=
  show t.own.lpi = s.own.lpi by rw [h]
theorem lpiValid_of_own {s t : State} (h : t.own = s.own) : t.lpiValid = s.lpiValid :=
  show t.own.lpiValid = s.own.lpiValid by rw [h]
theorem packetMaxLength_of_own {s t : State} (h : t.own = s.own) : t.packetMaxLength = s.packetMaxLength :=
  show t.own.packetMaxLength = s.own.packetMaxLength by rw [h]
theorem running_of_own {s t : State} (h : t.own = s.own) : t.running = s.running :=
  show t.own.running = s.own.running by rw [h]
theorem inbox_of_own {s t : State} (h : t.own = s.own) : t.inbox = s.inbox :=
  show t.own.inbox = s.own.inbox by rw [h]

end Sys2Proof.Machine
end

