-- ==== Sys2Proof/Laws/Ports.lean ====
section
/-! SUPPORT. The port transactions and the trace: each leaves the block's own state alone, extends the trace, and does not
turn the clock back; and the same for the sequences of transactions built from them. -/

namespace Sys2Proof.Machine

/-! ### The block's own state -/

/-- Two states with the same trace and the same outside are equal when their own parts are. -/
theorem eq_of_own_eq {s t : State} (h : s.own = t.own) (ht : s.trace = t.trace) (he : s.env = t.env) : s = t := by
  cases s
  cases t
  simp only [State.own, State.mk.injEq] at h ht he ⊢
  tauto

@[simp] theorem own_own (s : State) : s.own.own = s.own := rfl
@[simp] theorem emit_own (e : Entry) (s : State) : (s.emit e).own = s.own := rfl
@[simp] theorem respond_own (r : Response) (s : State) : (respond r s).own = s.own := rfl
@[simp] theorem sendByte_own (b : Byte) (s : State) : (sendByte b s).own = s.own := rfl
@[simp] theorem sendResponse_own (sym : Byte) (s : State) : (sendResponse sym s).own = s.own := rfl
@[simp] theorem seed_own (s : State) : (seed s).own = s.own := rfl
@[simp] theorem delay_own (us : Nat) (s : State) : (delay us s).own = s.own := rfl
@[simp] theorem raiseError_own (k : ErrorKind) (d : Half) (s : State) : (raiseError k d s).own = s.own := rfl
@[simp] theorem raiseReceive_own (off len : Byte) (info : PacketInfo) (s : State) :
    (raiseReceive off len info s).own = s.own := rfl
@[simp] theorem now_own (s : State) : (now s).2.own = s.own := rfl
@[simp] theorem canStart_own (s : State) : (canStart s).2.own = s.own := by unfold canStart; split <;> rfl
@[simp] theorem receiveByte_own (s : State) : (receiveByte s).2.own = s.own := by unfold receiveByte; split <;> rfl
@[simp] theorem receiveResponse_own (s : State) : (receiveResponse s).2.own = s.own := by
  unfold receiveResponse; split <;> rfl
@[simp] theorem random_own (n : Nat) (s : State) : (random n s).2.own = s.own := by unfold random; split <;> rfl

@[simp] theorem sendBytes_nil (s : State) : sendBytes [] s = s := rfl
@[simp] theorem sendBytes_cons (b : Byte) (bs : List Byte) (s : State) :
    sendBytes (b :: bs) s = sendBytes bs (sendByte b s) := rfl

@[simp] theorem sendBytes_own (bs : List Byte) (s : State) : (sendBytes bs s).own = s.own := by
  induction bs generalizing s with
  | nil => rfl
  | cons b bs ih => simp [ih]

@[simp] theorem sendBytes_env (bs : List Byte) (s : State) : (sendBytes bs s).env = s.env := by
  induction bs generalizing s with
  | nil => rfl
  | cons b bs ih => simp [ih]

/-- The bytes go onto the wire in index order. -/
@[simp] theorem sendBytes_trace (bs : List Byte) (s : State) :
    (sendBytes bs s).trace = s.trace ++ bs.map Entry.sendByte := by
  induction bs generalizing s with
  | nil => simp
  | cons b bs ih => simp [ih]

/-- What `sendBytes` does, at once: only the trace changes. -/
theorem sendBytes_eq (bs : List Byte) (s : State) :
    sendBytes bs s = { s with trace := s.trace ++ bs.map Entry.sendByte } :=
  eq_of_own_eq (sendBytes_own bs s) (by simp) (by simp)

/-! ### Draws -/

/-- A draw is below its bound (20_memory.md R71). -/
theorem random_lt {n : Nat} (h : 0 < n) (s : State) : (random n s).1 < n := by
  unfold random
  split <;> exact Nat.mod_lt _ h

/-! ### Nothing is lost, the clock does not go back -/

theorem advances_refl (s : State) : s.advances s := ⟨List.prefix_refl _, le_refl _⟩

theorem advances_trans {s t u : State} (h : s.advances t) (h' : t.advances u) : s.advances u :=
  ⟨h.1.trans h'.1, h.2.trans h'.2⟩

/-- An operation that appends to the trace and keeps the outside advances the state. -/
theorem advances_of_append {s t : State} {es : List Entry} (h : t.trace = s.trace ++ es) (ht : s.env.time ≤ t.env.time) :
    s.advances t := ⟨⟨es, h.symm⟩, ht⟩

theorem passTime_le (e : Env) : e.time ≤ (passTime e).time := by
  unfold passTime
  split <;> exact Nat.le_add_right _ _

theorem emit_advances (e : Entry) (s : State) : s.advances (s.emit e) := advances_of_append rfl (le_refl _)
theorem respond_advances (r : Response) (s : State) : s.advances (respond r s) := emit_advances _ s
theorem sendByte_advances (b : Byte) (s : State) : s.advances (sendByte b s) := emit_advances _ s
theorem sendResponse_advances (sym : Byte) (s : State) : s.advances (sendResponse sym s) := emit_advances _ s
theorem seed_advances (s : State) : s.advances (seed s) := emit_advances _ s
theorem raiseError_advances (k : ErrorKind) (d : Half) (s : State) : s.advances (raiseError k d s) := emit_advances _ s
theorem raiseReceive_advances (off len : Byte) (info : PacketInfo) (s : State) :
    s.advances (raiseReceive off len info s) := emit_advances _ s
theorem delay_advances (us : Nat) (s : State) : s.advances (delay us s) :=
  advances_of_append rfl (Nat.le_add_right _ _)
theorem now_advances (s : State) : s.advances (now s).2 := advances_of_append rfl (passTime_le _)
theorem canStart_advances (s : State) : s.advances (canStart s).2 := advances_of_append (canStart_trace s) (by simp)
theorem receiveByte_advances (s : State) : s.advances (receiveByte s).2 :=
  advances_of_append (receiveByte_trace s) (by simp)
theorem receiveResponse_advances (s : State) : s.advances (receiveResponse s).2 :=
  advances_of_append (receiveResponse_trace s) (by simp)
theorem random_advances (n : Nat) (s : State) : s.advances (random n s).2 :=
  advances_of_append (random_trace n s) (by simp)
theorem sendBytes_advances (bs : List Byte) (s : State) : s.advances (sendBytes bs s) :=
  advances_of_append (sendBytes_trace bs s) (by simp)

/-! ### Responses in a trace -/

@[simp] theorem responses_append (a b : List Entry) : responses (a ++ b) = responses a ++ responses b := by
  simp [responses]

@[simp] theorem responses_sendBytes (bs : List Byte) : responses (bs.map Entry.sendByte) = [] := by
  induction bs with
  | nil => rfl
  | cons b bs ih => simp [responses]

/-! ### Slots -/

@[simp] theorem slotAt_own (s : State) (i : Nat) : slotAt s.own i = slotAt s i := rfl

/-- `PKT[i]` just written. -/
@[simp] theorem slotAt_setSlot_same (s : State) {i : Nat} (p : Slot) (h : i < s.queue.length) :
    slotAt (setSlot i p s) i = p := by
  simp [slotAt, setSlot, h]

/-- Another slot is as it was. -/
theorem slotAt_setSlot_other (s : State) {i j : Nat} (p : Slot) (h : j ≠ i) : slotAt (setSlot i p s) j = slotAt s j := by
  have : i ≠ j := fun h' => h h'.symm
  simp [slotAt, setSlot, List.getD_eq_getElem?_getD, List.getElem?_set_ne this]

/-- States whose queues agree have the same slots. -/
theorem slotAt_congr {s t : State} (h : t.queue = s.queue) (i : Nat) : slotAt t i = slotAt s i := by
  simp [slotAt, h]

/-- A slot of the queue satisfies what every slot of the queue and the empty slot satisfy. -/
theorem slotAt_mem {s : State} {i : Nat} (h : i < s.queue.length) : slotAt s i ∈ s.queue := by
  simp [slotAt, List.getD_eq_getElem?_getD, h]

end Sys2Proof.Machine
end

