-- ==== Sys2Proof/Laws/Queue.lean ====
section
/-! SUPPORT. `ENQ` (41_queue_scheduler.md R150): everything it can do, said once. -/

namespace Sys2Proof.Machine

/-- The slot `ENQ` takes is a free one of the queue, and no lower one is free (R153). -/
theorem freeSlot_spec {s : State} {i : Nat} (h : freeSlot s = some i) :
    i < s.queue.length ∧ (slotAt s i).state = .free ∧ ∀ j, j < i → (slotAt s j).state ≠ .free := by
  unfold freeSlot at h
  obtain ⟨hi, hp, hlt⟩ := List.findIdx?_eq_some_iff_getElem.1 h
  refine ⟨hi, ?_, fun j hj => ?_⟩
  · simpa [slotAt, List.getD_eq_getElem?_getD, hi] using hp
  · have hj' : j < s.queue.length := lt_trans hj hi
    simpa [slotAt, List.getD_eq_getElem?_getD, hj'] using hlt j hj

/-- The converse: the lowest free slot is the one taken (R153). -/
theorem freeSlot_of {s : State} {i : Nat} (hi : i < s.queue.length) (hf : (slotAt s i).state = .free)
    (hlt : ∀ j, j < i → (slotAt s j).state ≠ .free) : freeSlot s = some i := by
  unfold freeSlot
  refine List.findIdx?_eq_some_iff_getElem.2 ⟨hi, ?_, fun j hj => ?_⟩
  · simpa [slotAt, List.getD_eq_getElem?_getD, hi] using hf
  · have hj' : j < s.queue.length := lt_trans hj hi
    simpa [slotAt, List.getD_eq_getElem?_getD, hj'] using hlt j hj

/-- No slot is taken exactly when every slot is pending (R153). -/
theorem freeSlot_none {s : State} : freeSlot s = none ↔ ∀ p ∈ s.queue, p.state ≠ .free := by
  simp [freeSlot, List.findIdx?_eq_none_iff]

/-- Everything `ENQ` can do (R150): too long; no slot; or one slot taken, after one clock read. -/
theorem enq_cases (dst : Byte) (rbus : BusId) (timing : Word) (explicit : Option Byte) (payload : List Byte) (s : State) :
    (s.packetMaxLength ≤ frameLength (chooseHeader explicit s) payload ∧
        enq dst rbus timing explicit payload s =
          (none, raiseError .contentTooLong (BitVec.ofNat 16 (frameLength (chooseHeader explicit s) payload)) s)) ∨
      (frameLength (chooseHeader explicit s) payload < s.packetMaxLength ∧ freeSlot s = none ∧
        enq dst rbus timing explicit payload s =
          (none, raiseError .packetsBufferFull (BitVec.ofNat 16 s.queue.length) s)) ∨
      (∃ i, frameLength (chooseHeader explicit s) payload < s.packetMaxLength ∧ freeSlot s = some i ∧
        enq dst rbus timing explicit payload s =
          (some i, setSlot i
            (pendingSlot dst (chooseHeader explicit s) (slotContent (chooseHeader explicit s) rbus payload s) (now s).1 timing)
            (now s).2)) := by
  by_cases hlen : s.packetMaxLength ≤ frameLength (chooseHeader explicit s) payload
  · exact .inl ⟨hlen, by simp [enq, hlen]⟩
  · cases hf : freeSlot s with
    | none => exact .inr (.inl ⟨by omega, rfl, by simp [enq, hlen, hf]⟩)
    | some i => exact .inr (.inr ⟨i, by omega, rfl, by simp [enq, hlen, hf]⟩)

theorem enq_advances (dst : Byte) (rbus : BusId) (timing : Word) (explicit : Option Byte) (payload : List Byte) (s : State) :
    s.advances (enq dst rbus timing explicit payload s).2 := by
  rcases enq_cases dst rbus timing explicit payload s with ⟨_, h⟩ | ⟨_, _, h⟩ | ⟨i, _, _, h⟩ <;> rw [h]
  · exact raiseError_advances ..
  · exact raiseError_advances ..
  · exact now_advances s

/-- `ENQ` writes the queue and nothing else of the block's own state (R150). -/
theorem enq_own (dst : Byte) (rbus : BusId) (timing : Word) (explicit : Option Byte) (payload : List Byte) (s : State) :
    (enq dst rbus timing explicit payload s).2.own =
      { s.own with queue := (enq dst rbus timing explicit payload s).2.queue } := by
  rcases enq_cases dst rbus timing explicit payload s with ⟨_, h⟩ | ⟨_, _, h⟩ | ⟨i, _, _, h⟩ <;> rw [h] <;> rfl

end Sys2Proof.Machine
end

