-- ==== Sys2Proof/Laws/Memory.lean ====
section
/-! SUPPORT. The byte array: reading after writing, and the canonical form kept by every operation on it. -/

namespace Sys2Proof.Machine

/-- Reading the index just written gives the byte written. -/
@[simp] theorem read_write_same (m : Memory) (a : Nat) (b : Byte) : (m.write a b).read a = some b := by
  induction m with
  | nil => simp [Memory.write, Memory.read]
  | cons c m ih =>
    unfold Memory.write
    split
    · simp [Memory.read]
    · split
      · simp [Memory.read]
      · rename_i h1 h2
        have : c.1 ≠ a := fun h => h2 h.symm
        simp [Memory.read, this, ih]

/-- Writing one index leaves every other index as it was. -/
theorem read_write_other (m : Memory) {a x : Nat} (b : Byte) (h : x ≠ a) : (m.write a b).read x = m.read x := by
  have hx : a ≠ x := fun h' => h h'.symm
  induction m with
  | nil => simp [Memory.write, Memory.read, hx]
  | cons c m ih =>
    unfold Memory.write
    split
    · simp [Memory.read, hx]
    · split
      · rename_i h1 h2
        have : c.1 ≠ x := fun h' => h (h'.symm.trans h2.symm)
        simp [Memory.read, hx, this]
      · simp [Memory.read, ih]

/-- A cell of the written array is the new one or an old one. -/
theorem mem_write {m : Memory} {a : Nat} {b : Byte} {c : Host.Cell} (h : c ∈ m.write a b) : c = (a, b) ∨ c ∈ m := by
  induction m with
  | nil => simpa [Memory.write] using h
  | cons d m ih =>
    unfold Memory.write at h
    split at h
    · simpa using h
    · split at h
      · rcases List.mem_cons.1 h with h | h
        · exact .inl h
        · exact .inr (List.mem_cons_of_mem _ h)
      · rcases List.mem_cons.1 h with h | h
        · exact .inr (h ▸ List.mem_cons_self ..)
        · exact (ih h).imp id (List.mem_cons_of_mem _)

/-- A write keeps the canonical form. -/
theorem write_wf {m : Memory} (a : Nat) (b : Byte) (h : m.wf) : (m.write a b).wf := by
  induction m with
  | nil => simp [Memory.write, Memory.wf]
  | cons c m ih =>
    obtain ⟨hc, hm⟩ := List.pairwise_cons.1 h
    unfold Memory.write
    split
    · rename_i hlt
      refine List.pairwise_cons.2 ⟨fun x hx => ?_, h⟩
      rcases List.mem_cons.1 hx with rfl | hx
      · exact hlt
      · exact lt_trans hlt (hc x hx)
    · split
      · rename_i heq
        exact List.pairwise_cons.2 ⟨fun x hx => by simpa [heq] using hc x hx, hm⟩
      · rename_i h1 h2
        refine List.pairwise_cons.2 ⟨fun x hx => ?_, ih hm⟩
        rcases mem_write hx with rfl | hx
        · change c.1 < a
          omega
        · exact hc x hx

/-- A write inside a bound keeps every cell inside it. -/
theorem write_bound {m : Memory} {a n : Nat} (b : Byte) (ha : a < n) (h : ∀ c ∈ m, c.1 < n) :
    ∀ c ∈ m.write a b, c.1 < n := by
  intro c hc
  rcases mem_write hc with rfl | hc
  · exact ha
  · exact h c hc

end Sys2Proof.Machine
end

