-- ==== Sys2Proof/Laws/Receive.lean ====
section
/-! SUPPORT. The receive engine (43_receive.md): it writes `RXBUF`, and on an accepted frame `LPI` and `LPI_VALID`; nothing
else of the block's own state. -/

namespace Sys2Proof.Machine

/-- Only `RXBUF`, `LPI` and `LPI_VALID` are written, as everything else stands (R200, R222). -/
abbrev RxWrite (s t : State) : Prop := t.own = { s.own with rxbuf := t.rxbuf, lpi := t.lpi, lpiValid := t.lpiValid }

/-- Only `RXBUF` is written. -/
abbrev BufferWrite (s t : State) : Prop := t.own = { s.own with rxbuf := t.rxbuf }

theorem bufferWrite_trans {s t u : State} (h : BufferWrite s t) (h' : BufferWrite t u) : BufferWrite s u := by
  unfold BufferWrite at *
  rw [h', h]

theorem bufferWrite_of_own {s t : State} (h : t.own = s.own) : BufferWrite s t := by
  unfold BufferWrite
  rw [h, rxbuf_of_own h]
  rfl

theorem rxWrite_of_bufferWrite {s t : State} (h : BufferWrite s t) : RxWrite s t := by
  have hl : t.lpi = s.lpi := show t.own.lpi = s.lpi by rw [h]; rfl
  have hv : t.lpiValid = s.lpiValid := show t.own.lpiValid = s.lpiValid by rw [h]; rfl
  unfold RxWrite
  rw [h, hl, hv]
  rfl

theorem rxWrite_trans {s t u : State} (h : RxWrite s t) (h' : RxWrite t u) : RxWrite s u := by
  unfold RxWrite at *
  rw [h', h]

/-- Everything one read into the buffer can do (R202, R208): a failed read, or one byte stored at its index. -/
theorem receiveInto_cases (i : Nat) (s : State) :
    ((receiveByte s).1 = none ∧ receiveInto i s = (none, (receiveByte s).2)) ∨
      (∃ b, (receiveByte s).1 = some b ∧ receiveInto i s = (some b, storeRx i b (receiveByte s).2)) := by
  cases h : (receiveByte s).1 with
  | none => exact .inl ⟨rfl, by simp [receiveInto, h]⟩
  | some b => exact .inr ⟨b, rfl, by simp [receiveInto, h]⟩

/-- A read that the strategy answers with a byte stores it at its index and takes the answer (R202, R208). -/
theorem receiveInto_delivered {s : State} {b : Byte} {rest : List (Option Byte)} (i : Nat) (h : s.env.byteIn = some b :: rest) :
    receiveInto i s =
      (some b, { s with
        rxbuf := s.rxbuf.write i b
        env := { s.env with byteIn := rest }
        trace := s.trace ++ [.receiveByte (some b)] }) := by
  simp [receiveInto, receiveByte, h, storeRx, State.emit]

/-- Reading the rest of a frame that the strategy delivers, its first bytes passing the bus-id filter (R206): one byte is stored
and the reading goes on. -/
theorem receiveRest_delivered {s : State} {b : Byte} {rest : List (Option Byte)} (n i : Nat) (hdr : Byte) (frame : List Byte)
    (h : s.env.byteIn = some b :: rest) (hf : rejectsBusByte i hdr b s = false) :
    receiveRest (n + 1) i hdr frame s =
      receiveRest n (i + 1) hdr (frame ++ [b])
        { s with
          rxbuf := s.rxbuf.write i b
          env := { s.env with byteIn := rest }
          trace := s.trace ++ [.receiveByte (some b)] } := by
  have hf' : ¬ rejectsBusByte i hdr b
      { s with
        rxbuf := s.rxbuf.write i b
        env := { s.env with byteIn := rest }
        trace := s.trace ++ [.receiveByte (some b)] } = true := by
    change ¬ rejectsBusByte i hdr b s = true
    simp [hf]
  rw [receiveRest, receiveInto_delivered i h]
  dsimp only
  rw [if_neg hf']

theorem receiveInto_bufferWrite (i : Nat) (s : State) : BufferWrite s (receiveInto i s).2 := by
  rcases receiveInto_cases i s with ⟨_, h⟩ | ⟨b, _, h⟩ <;> rw [h]
  · exact bufferWrite_of_own (receiveByte_own s)
  · exact bufferWrite_trans (bufferWrite_of_own (receiveByte_own s)) rfl

theorem receiveInto_advances (i : Nat) (s : State) : s.advances (receiveInto i s).2 := by
  rcases receiveInto_cases i s with ⟨_, h⟩ | ⟨b, _, h⟩ <;> rw [h] <;> exact receiveByte_advances s

/-- Every read that succeeds or fails is one `ReceiveByte` of the trace. -/
theorem receiveInto_trace (i : Nat) (s : State) :
    (receiveInto i s).2.trace = s.trace ++ [.receiveByte (receiveInto i s).1] := by
  rcases receiveInto_cases i s with ⟨h0, h⟩ | ⟨b, h0, h⟩ <;> rw [h] <;> simp [h0]

theorem receiveRest_bufferWrite (n i : Nat) (h : Byte) (frame : List Byte) (s : State) :
    BufferWrite s (receiveRest n i h frame s).2 := by
  induction n generalizing i frame s with
  | zero => rfl
  | succ n ih =>
    unfold receiveRest
    dsimp only
    split
    · exact receiveInto_bufferWrite i s
    · split
      · exact receiveInto_bufferWrite i s
      · exact bufferWrite_trans (receiveInto_bufferWrite i s) (ih ..)

theorem receiveRest_advances (n i : Nat) (h : Byte) (frame : List Byte) (s : State) :
    s.advances (receiveRest n i h frame s).2 := by
  induction n generalizing i frame s with
  | zero => exact advances_refl s
  | succ n ih =>
    unfold receiveRest
    dsimp only
    split
    · exact receiveInto_advances i s
    · split
      · exact receiveInto_advances i s
      · exact advances_trans (receiveInto_advances i s) (ih ..)

/-- A frame read whole has as many bytes as were asked for. -/
theorem receiveRest_length {n i : Nat} {h : Byte} {frame whole : List Byte} {s : State}
    (hw : (receiveRest n i h frame s).1 = .whole whole) : whole.length = frame.length + n := by
  induction n generalizing i frame s with
  | zero =>
    simp only [receiveRest, RxScan.whole.injEq] at hw
    simp [hw]
  | succ n ih =>
    unfold receiveRest at hw
    dsimp only at hw
    split at hw
    · simp at hw
    · split at hw
      · simp at hw
      · have := ih hw
        simp at this
        omega

/-- A frame that is not read whole ends in `BUSY` or `FAIL` (R202, R206). -/
theorem receiveRest_stopped {n i : Nat} {h : Byte} {frame : List Byte} {s : State} {o : Outcome}
    (hs : (receiveRest n i h frame s).1 = .stopped o) : o = .busy ∨ o = .fail := by
  induction n generalizing i frame s with
  | zero => simp [receiveRest] at hs
  | succ n ih =>
    unfold receiveRest at hs
    dsimp only at hs
    split at hs
    · simp only [RxScan.stopped.injEq] at hs
      exact .inr hs.symm
    · split at hs
      · simp only [RxScan.stopped.injEq] at hs
        exact .inl hs.symm
      · exact ih hs

theorem respondSymbol_own (sym : Byte) (frame : List Byte) (s : State) : (respondSymbol sym frame s).own = s.own := by
  unfold respondSymbol
  split <;> simp

theorem respondSymbol_advances (sym : Byte) (frame : List Byte) (s : State) :
    s.advances (respondSymbol sym frame s) := by
  unfold respondSymbol
  split
  · exact sendResponse_advances sym s
  · exact advances_refl s

theorem acceptFrame_own (frame : List Byte) (s : State) :
    (acceptFrame frame s).own = { s.own with lpi := decodeInfo frame, lpiValid := true } := by
  simp only [acceptFrame, raiseReceive_own, respondSymbol_own]
  rfl

/-- Everything the end of a frame can do (R209 to R216). -/
theorem finishFrame_cases (frame : List Byte) (s : State) :
    (frameValid frame = true ∧ finishFrame frame s = (.ack, acceptFrame frame s)) ∨
      (frameValid frame = false ∧ finishFrame frame s = (.nak, respondSymbol Config.nakSymbol frame s)) := by
  cases h : frameValid frame
  · exact .inr ⟨rfl, by simp [finishFrame, h]⟩
  · exact .inl ⟨rfl, by simp [finishFrame, h]⟩

theorem finishFrame_rxWrite (frame : List Byte) (s : State) : RxWrite s (finishFrame frame s).2 := by
  rcases finishFrame_cases frame s with ⟨_, h⟩ | ⟨_, h⟩ <;> rw [h]
  · have hl : (acceptFrame frame s).lpi = decodeInfo frame :=
      show (acceptFrame frame s).own.lpi = _ by rw [acceptFrame_own]
    have hv : (acceptFrame frame s).lpiValid = true :=
      show (acceptFrame frame s).own.lpiValid = _ by rw [acceptFrame_own]
    have hr : (acceptFrame frame s).rxbuf = s.rxbuf :=
      show (acceptFrame frame s).own.rxbuf = _ by rw [acceptFrame_own]; rfl
    unfold RxWrite
    rw [hl, hv, hr, acceptFrame_own]
    rfl
  · exact rxWrite_of_bufferWrite (bufferWrite_of_own (respondSymbol_own ..))

theorem finishFrame_advances (frame : List Byte) (s : State) : s.advances (finishFrame frame s).2 := by
  rcases finishFrame_cases frame s with ⟨_, h⟩ | ⟨_, h⟩ <;> rw [h]
  · exact advances_trans (t := storeInfo frame s) (advances_refl s)
      (advances_trans (respondSymbol_advances ..) (raiseReceive_advances ..))
  · exact respondSymbol_advances ..

/-- Everything a pass of the receive engine can come to (R201): it stops early, with `BUSY` or `FAIL` and only the buffer
written, or it reads a whole frame and finishes it. -/
theorem receive1_cases (s : State) :
    (∃ t, ((receive1 s).1 = .busy ∨ (receive1 s).1 = .fail) ∧ (receive1 s).2 = t ∧ BufferWrite s t ∧ s.advances t) ∨
      (∃ frame t, receive1 s = finishFrame frame t ∧ BufferWrite s t ∧ s.advances t) := by
  have stop : ∀ (o : Outcome) (t : State), (o = .busy ∨ o = .fail) → receive1 s = (o, t) → BufferWrite s t → s.advances t →
      (∃ t, ((receive1 s).1 = .busy ∨ (receive1 s).1 = .fail) ∧ (receive1 s).2 = t ∧ BufferWrite s t ∧ s.advances t) ∨
      (∃ frame t, receive1 s = finishFrame frame t ∧ BufferWrite s t ∧ s.advances t) := by
    intro o t ho h hb ha
    exact .inl ⟨t, by rw [h]; exact ho, by rw [h], hb, ha⟩
  have b0 := receiveInto_bufferWrite 0 s
  have a0 := receiveInto_advances 0 s
  cases h0 : (receiveInto 0 s).1 with
  | none => exact stop .fail _ (.inr rfl) (by simp [receive1, h0]) b0 a0
  | some dst =>
    cases r0 : rejectsReceiver dst (receiveInto 0 s).2 with
    | true => exact stop .busy _ (.inl rfl) (by simp [receive1, h0, r0]) b0 a0
    | false =>
      generalize hs0 : (receiveInto 0 s).2 = s0 at *
      have b1 := bufferWrite_trans b0 (receiveInto_bufferWrite 1 s0)
      have a1 := advances_trans a0 (receiveInto_advances 1 s0)
      cases h1 : (receiveInto 1 s0).1 with
      | none => exact stop .fail _ (.inr rfl) (by simp [receive1, h0, hs0, r0, receiveLength, h1]) b1 a1
      | some len =>
        cases r1 : rejectsLength len (receiveInto 1 s0).2 with
        | true => exact stop .fail _ (.inr rfl) (by simp [receive1, h0, hs0, r0, receiveLength, h1, r1]) b1 a1
        | false =>
          generalize hs1 : (receiveInto 1 s0).2 = s1 at *
          have b2 := bufferWrite_trans b1 (receiveInto_bufferWrite 2 s1)
          have a2 := advances_trans a1 (receiveInto_advances 2 s1)
          cases h2 : (receiveInto 2 s1).1 with
          | none =>
            exact stop .fail _ (.inr rfl)
              (by simp [receive1, h0, hs0, r0, receiveLength, h1, hs1, r1, receiveHeader, h2]) b2 a2
          | some h =>
            cases r2 : rejectsHeader h (receiveInto 2 s1).2 with
            | true =>
              exact stop .busy _ (.inl rfl)
                (by simp [receive1, h0, hs0, r0, receiveLength, h1, hs1, r1, receiveHeader, h2, r2]) b2 a2
            | false =>
              generalize hs2 : (receiveInto 2 s1).2 = s2 at *
              have b3 := bufferWrite_trans b2 (receiveRest_bufferWrite (len.toNat - 3) 3 h [dst, len, h] s2)
              have a3 := advances_trans a2 (receiveRest_advances (len.toNat - 3) 3 h [dst, len, h] s2)
              have hr : receive1 s = receiveTail dst len h s2 := by
                simp [receive1, h0, hs0, r0, receiveLength, h1, hs1, r1, receiveHeader, h2, hs2, r2]
              cases h3 : (receiveRest (len.toNat - 3) 3 h [dst, len, h] s2).1 with
              | whole frame => exact .inr ⟨frame, _, by rw [hr]; simp [receiveTail, h3], b3, a3⟩
              | stopped o =>
                exact stop o _ (receiveRest_stopped h3) (by rw [hr]; simp [receiveTail, h3]) b3 a3

/-- A pass writes `RXBUF`, `LPI` and `LPI_VALID` and nothing else of the block's own state (R200, R222). -/
theorem receive1_rxWrite (s : State) : RxWrite s (receive1 s).2 := by
  rcases receive1_cases s with ⟨t, _, rfl, hb, _⟩ | ⟨frame, t, h, hb, _⟩
  · exact rxWrite_of_bufferWrite hb
  · rw [h]
    exact rxWrite_trans (rxWrite_of_bufferWrite hb) (finishFrame_rxWrite ..)

theorem receive1_advances (s : State) : s.advances (receive1 s).2 := by
  rcases receive1_cases s with ⟨t, _, rfl, _, ha⟩ | ⟨frame, t, h, _, ha⟩
  · exact ha
  · rw [h]
    exact advances_trans ha (finishFrame_advances ..)

end Sys2Proof.Machine
end

