-- ==== Sys2Proof/Laws/Transmit.lean ====
section
/-! SUPPORT. The transmit engine writes no state of the block (42_transmit.md R180). -/

namespace Sys2Proof.Machine

@[simp] theorem awaitResponse_own (s : State) : (awaitResponse s).2.own = s.own := by
  unfold awaitResponse
  dsimp only
  split <;> simp

theorem awaitResponse_advances (s : State) : s.advances (awaitResponse s).2 := by
  unfold awaitResponse
  dsimp only
  split
  · exact advances_trans (receiveResponse_advances s)
      (advances_trans (random_advances _ _) (delay_advances _ _))
  · exact receiveResponse_advances s

@[simp] theorem transmitFrame_own (dst len h : Byte) (body : List Byte) (s : State) :
    (transmitFrame dst len h body s).2.own = s.own := by
  unfold transmitFrame
  dsimp only
  split <;> simp

theorem transmitFrame_advances (dst len h : Byte) (body : List Byte) (s : State) :
    s.advances (transmitFrame dst len h body s).2 := by
  unfold transmitFrame
  dsimp only
  split
  · exact sendBytes_advances _ s
  · exact advances_trans (sendBytes_advances _ s) (awaitResponse_advances _)

@[simp] theorem transmit_own (dst len h : Byte) (body : List Byte) (s : State) :
    (transmit dst len h body s).2.own = s.own := by
  unfold transmit
  dsimp only
  split
  · simp
  · split <;> simp

theorem transmit_advances (dst len h : Byte) (body : List Byte) (s : State) :
    s.advances (transmit dst len h body s).2 := by
  unfold transmit
  dsimp only
  split
  · exact transmitFrame_advances ..
  · split
    · exact advances_trans (canStart_advances s) (transmitFrame_advances ..)
    · exact canStart_advances s

@[simp] theorem transmitSlot_own (i : Nat) (s : State) : (transmitSlot i s).2.own = s.own := by
  simp [transmitSlot]

theorem transmitSlot_advances (i : Nat) (s : State) : s.advances (transmitSlot i s).2 := transmit_advances ..

@[simp] theorem transmitSlot_queue (i : Nat) (s : State) : (transmitSlot i s).2.queue = s.queue :=
  queue_of_own (transmitSlot_own i s)

@[simp] theorem slotAt_transmitSlot (i j : Nat) (s : State) : slotAt (transmitSlot i s).2 j = slotAt s j :=
  slotAt_congr (transmitSlot_queue i s) j

end Sys2Proof.Machine
end

