-- ==== Sys2Proof/Laws/Scheduler.lean ====
section
/-! SUPPORT. The scheduler (41_queue_scheduler.md): `TICK` writes the queue and `DEVICE_ID` and nothing else of the block's
own state; one turn touches one slot. -/

namespace Sys2Proof.Machine

/-- A write to the queue, and possibly to `DEVICE_ID`, as everything else stands. -/
abbrev QueueWrite (s t : State) : Prop := t.own = { s.own with queue := t.queue, deviceId := t.deviceId }

theorem queueWrite_refl (s : State) : QueueWrite s s := rfl

theorem queueWrite_trans {s t u : State} (h : QueueWrite s t) (h' : QueueWrite t u) : QueueWrite s u := by
  unfold QueueWrite at *
  rw [h', h]

theorem queueWrite_of_own {s t : State} (h : t.own = s.own) : QueueWrite s t := by
  have hq : t.queue = s.queue := queue_of_own h
  have hd : t.deviceId = s.deviceId := deviceId_of_own h
  unfold QueueWrite
  rw [h, hq, hd]
  rfl

theorem handleAck_queueWrite (i : Nat) (s : State) : QueueWrite s (handleAck i s) := by
  unfold handleAck
  split <;> rfl

theorem afterConnectionLost_queueWrite (i : Nat) (s : State) : QueueWrite s (afterConnectionLost i s) := by
  unfold afterConnectionLost
  split
  · rfl
  · split <;> rfl

theorem handleExhausted_queueWrite (i : Nat) (s : State) : QueueWrite s (handleExhausted i s) := by
  unfold handleExhausted
  split
  · rfl
  · exact queueWrite_trans (queueWrite_of_own (raiseError_own ..)) (afterConnectionLost_queueWrite ..)

theorem handleFail_queueWrite (i : Nat) (s : State) : QueueWrite s (handleFail i s) := by
  unfold handleFail
  dsimp only
  split
  · exact queueWrite_trans (t := countAttempt i s) rfl (handleExhausted_queueWrite ..)
  · rfl

theorem handleOutcome_queueWrite (i : Nat) (o : Outcome) (s : State) : QueueWrite s (handleOutcome i o s) := by
  have h : QueueWrite s (storeOutcome i o s) := rfl
  cases o
  · exact queueWrite_trans h (handleAck_queueWrite ..)
  · exact h
  · exact h
  · exact queueWrite_trans h (handleFail_queueWrite ..)

/-- Everything one turn of `TICK` can do (R160): a free slot, nothing; a slot not due, one clock read; a slot due, one
transmission and the handling of its outcome. -/
theorem tickSlot_cases (i : Nat) (s : State) :
    ((slotAt s i).state = .free ∧ tickSlot i s = s) ∨
      ((slotAt s i).state ≠ .free ∧ due (slotAt s i) (now s).1 = false ∧ tickSlot i s = (now s).2) ∨
      ((slotAt s i).state ≠ .free ∧ due (slotAt s i) (now s).1 = true ∧
        tickSlot i s = handleOutcome i (transmitSlot i (now s).2).1 (transmitSlot i (now s).2).2) := by
  by_cases hf : (slotAt s i).state = .free
  · exact .inl ⟨hf, by simp [tickSlot, hf]⟩
  · cases hd : due (slotAt s i) (now s).1
    · exact .inr (.inl ⟨hf, rfl, by simp [tickSlot, hf, hd]⟩)
    · exact .inr (.inr ⟨hf, rfl, by simp [tickSlot, hf, hd]⟩)

theorem tickSlot_queueWrite (i : Nat) (s : State) : QueueWrite s (tickSlot i s) := by
  rcases tickSlot_cases i s with ⟨_, h⟩ | ⟨_, _, h⟩ | ⟨_, _, h⟩
  · rw [h]; exact queueWrite_refl s
  · exact h ▸ queueWrite_of_own (now_own s)
  · exact h ▸ queueWrite_trans (queueWrite_of_own ((transmitSlot_own i _).trans (now_own s)))
      (handleOutcome_queueWrite ..)

theorem tick_queueWrite (s : State) : QueueWrite s (tick s) := by
  unfold tick
  generalize List.range s.queue.length = l
  induction l generalizing s with
  | nil => rfl
  | cons i l ih => exact queueWrite_trans (tickSlot_queueWrite i s) (ih _)

/-! ### Nothing is lost -/

theorem handleAck_advances (i : Nat) (s : State) : s.advances (handleAck i s) := by
  unfold handleAck
  split
  · exact advances_refl s
  · exact now_advances s

theorem afterConnectionLost_advances (i : Nat) (s : State) : s.advances (afterConnectionLost i s) := by
  unfold afterConnectionLost
  split
  · exact advances_refl s
  · split <;> exact advances_refl s

theorem handleExhausted_advances (i : Nat) (s : State) : s.advances (handleExhausted i s) := by
  unfold handleExhausted
  split
  · exact advances_refl s
  · exact advances_trans (raiseError_advances ..) (afterConnectionLost_advances ..)

theorem handleFail_advances (i : Nat) (s : State) : s.advances (handleFail i s) := by
  unfold handleFail
  dsimp only
  split
  · exact advances_trans (t := countAttempt i s) (advances_refl s) (handleExhausted_advances ..)
  · exact advances_refl s

theorem handleOutcome_advances (i : Nat) (o : Outcome) (s : State) : s.advances (handleOutcome i o s) := by
  cases o
  · exact advances_trans (t := storeOutcome i .ack s) (advances_refl s) (handleAck_advances ..)
  · exact advances_refl s
  · exact advances_refl s
  · exact advances_trans (t := storeOutcome i .fail s) (advances_refl s) (handleFail_advances ..)

theorem tickSlot_advances (i : Nat) (s : State) : s.advances (tickSlot i s) := by
  rcases tickSlot_cases i s with ⟨_, h⟩ | ⟨_, _, h⟩ | ⟨_, _, h⟩
  · rw [h]; exact advances_refl s
  · exact h ▸ now_advances s
  · exact h ▸ advances_trans (now_advances s) (advances_trans (transmitSlot_advances ..) (handleOutcome_advances ..))

theorem tick_advances (s : State) : s.advances (tick s) := by
  unfold tick
  generalize List.range s.queue.length = l
  induction l generalizing s with
  | nil => exact advances_refl s
  | cons i l ih => exact advances_trans (tickSlot_advances i s) (ih _)

/-! ### One turn touches one slot, and keeps the number of slots -/

theorem handleOutcome_queue (i : Nat) (o : Outcome) (s : State) :
    ∃ p, (handleOutcome i o s).queue = s.queue.set i p := by
  cases o
  · unfold handleOutcome handleAck storeOutcome
    dsimp only
    split <;> exact ⟨_, by simp [List.set_set]; rfl⟩
  · exact ⟨_, rfl⟩
  · exact ⟨_, rfl⟩
  · unfold handleOutcome handleFail handleExhausted afterConnectionLost countAttempt storeOutcome
    dsimp only
    split
    · split
      · exact ⟨_, by simp [List.set_set]; rfl⟩
      · split
        · exact ⟨_, by simp [List.set_set]; rfl⟩
        · split
          · exact ⟨_, by simp [List.set_set]; rfl⟩
          · exact ⟨_, by simp [List.set_set]; rfl⟩
    · exact ⟨_, by simp [List.set_set]; rfl⟩

theorem tickSlot_queue_length (i : Nat) (s : State) : (tickSlot i s).queue.length = s.queue.length := by
  rcases tickSlot_cases i s with ⟨_, h⟩ | ⟨_, _, h⟩ | ⟨_, _, h⟩
  · rw [h]
  · rw [h]; rfl
  · rw [h]
    obtain ⟨p, hp⟩ := handleOutcome_queue i (transmitSlot i (now s).2).1 (transmitSlot i (now s).2).2
    simp [hp]

/-- A turn for slot `i` leaves every other slot as it was (R161). -/
theorem tickSlot_other (s : State) {i j : Nat} (hij : j ≠ i) : slotAt (tickSlot i s) j = slotAt s j := by
  have hji : i ≠ j := fun h => hij h.symm
  rcases tickSlot_cases i s with ⟨_, h⟩ | ⟨_, _, h⟩ | ⟨_, _, h⟩
  · rw [h]
  · rw [h]; rfl
  · rw [h]
    obtain ⟨p, hp⟩ := handleOutcome_queue i (transmitSlot i (now s).2).1 (transmitSlot i (now s).2).2
    simp [slotAt, hp, List.getD_eq_getElem?_getD, List.getElem?_set_ne hji]

theorem tick_queue_length (s : State) : (tick s).queue.length = s.queue.length := by
  unfold tick
  generalize List.range s.queue.length = l
  induction l generalizing s with
  | nil => rfl
  | cons i l ih => exact (ih _).trans (tickSlot_queue_length i s)

end Sys2Proof.Machine
end

