-- ==== Sys2Proof/Laws/Acquire.lean ====
section
/-! SUPPORT. The turns of the two commands that take more than one step (43_receive.md R230, 45_id_acquisition.md R270):
everything each turn can do, said once, and that nothing is lost by it. -/

namespace Sys2Proof.Machine

/-- Everything a turn of `RECEIVE_FOR` can do (R230). -/
theorem receiveForTurn_cases (t0 : Time) (duration : Word) (s : State) :
    ((receive1 s).1 = .ack ∧ receiveForTurn t0 duration s = endReceiveFor .ack (receive1 s).2) ∨
      ((receive1 s).1 ≠ .ack ∧
        receiveForTurn t0 duration s = endReceiveFor (receive1 s).1 (now (receive1 s).2).2) ∨
      ((receive1 s).1 ≠ .ack ∧
        receiveForTurn t0 duration s = { (now (receive1 s).2).2 with running := .receiveFor t0 duration }) := by
  unfold receiveForTurn
  dsimp only
  split
  · exact .inl ⟨‹_›, rfl⟩
  · split
    · exact .inr (.inl ⟨‹_›, rfl⟩)
    · exact .inr (.inr ⟨‹_›, rfl⟩)

/-- Everything a turn of the outer loop of `ACQUIRE_ID` can do (R270, R274). -/
theorem acquireScanTurn_cases (t0 : Time) (k : Nat) (s : State) :
    (254 < k ∧ acquireScanTurn t0 k s = failAcquire s) ∨
      (k ≤ 254 ∧ acquireScanTurn t0 k s = failAcquire (now s).2) ∨
      (k ≤ 254 ∧ (enqProbe k (now s).2).1 = none ∧ acquireScanTurn t0 k s = failAcquire (enqProbe k (now s).2).2) ∨
      (∃ i, k ≤ 254 ∧ (enqProbe k (now s).2).1 = some i ∧
        acquireScanTurn t0 k s = { (enqProbe k (now s).2).2 with running := .acquireProbe t0 k i }) := by
  unfold acquireScanTurn
  by_cases hk : k ≤ 254
  · rw [if_pos hk]
    dsimp only
    split
    · exact .inr (.inl ⟨hk, rfl⟩)
    · cases he : (enqProbe k (now s).2).1 with
      | none => exact .inr (.inr (.inl ⟨hk, rfl, rfl⟩))
      | some i => exact .inr (.inr (.inr ⟨i, hk, rfl, rfl⟩))
  · rw [if_neg hk]
    exact .inl ⟨by omega, rfl⟩

/-- Everything a turn of the inner loop of `ACQUIRE_ID` can do (R270, R272, R273): the loop is left, before or after a clock
read, or one `TICK` is made. -/
theorem acquireProbeTurn_cases (t0 : Time) (k slot : Nat) (s : State) :
    acquireProbeTurn t0 k slot s = acquireNext t0 k s ∨
      acquireProbeTurn t0 k slot s = acquireNext t0 k (now s).2 ∨
      acquireProbeTurn t0 k slot s = tick { (now s).2 with running := .acquireProbe t0 k slot } := by
  unfold acquireProbeTurn
  dsimp only
  split
  · exact .inl rfl
  · split
    · exact .inr (.inl rfl)
    · exact .inr (.inr rfl)

/-- The id test after the inner loop (R273). -/
theorem acquireNext_cases (t0 : Time) (k : Nat) (s : State) :
    acquireNext t0 k s = endAcquire s ∨ acquireNext t0 k s = { s with running := .acquireScan t0 (k + 1) } := by
  unfold acquireNext
  split
  · exact .inl rfl
  · exact .inr rfl

/-- Writing what runs next loses nothing. -/
theorem running_advances (s : State) (r : Running) : s.advances { s with running := r } := advances_refl s

theorem endReceiveFor_advances (o : Outcome) (s : State) : s.advances (endReceiveFor o s) :=
  respond_advances (.outcome o) { s with running := .idle }

theorem endAcquire_advances (s : State) : s.advances (endAcquire s) := respond_advances .void { s with running := .idle }

theorem failAcquire_advances (s : State) : s.advances (failAcquire s) :=
  advances_trans (raiseError_advances ..) (endAcquire_advances _)

theorem acquireNext_advances (t0 : Time) (k : Nat) (s : State) : s.advances (acquireNext t0 k s) := by
  rcases acquireNext_cases t0 k s with h | h <;> rw [h]
  · exact endAcquire_advances s
  · exact running_advances s _

end Sys2Proof.Machine
end

