-- ==== Sys2Proof/Laws/Operands.lean ====
section
/-! SUPPORT. The meanings that check an operand: a next state, or the one refusal of 30_encoding.md R122 that the operand
earns. -/

namespace Sys2Proof.Machine

/-- Everything an enqueue with `hsel` and `header` operands can do (R114, R122). -/
theorem enqueueOperands_cases (dst : Byte) (rbus : BusId) (timing : Word) (hsel header : Byte) (payload : List Byte) (s : State) :
    (∃ explicit, headerOperand hsel header = .ok explicit ∧
        (explicit = none ∨ reservedBitsClear header = true ∧ explicit = some header) ∧
        enqueueOperands dst rbus timing hsel header payload s =
          .next (enqueueCommand dst rbus timing explicit payload s)) ∨
      (hsel = 1 ∧ reservedBitsClear header = false ∧
        enqueueOperands dst rbus timing hsel header payload s = .refused .reservedHeaderBits) ∨
      (hsel ≠ 0 ∧ hsel ≠ 1 ∧ enqueueOperands dst rbus timing hsel header payload s = .refused .reservedOperand) := by
  unfold enqueueOperands headerOperand
  by_cases h0 : hsel = 0
  · rw [if_pos h0]
    exact .inl ⟨none, rfl, .inl rfl, rfl⟩
  · rw [if_neg h0]
    by_cases h1 : hsel = 1
    · rw [if_pos h1]
      cases hb : reservedBitsClear header
      · exact .inr (.inl ⟨h1, rfl, rfl⟩)
      · exact .inl ⟨some header, rfl, .inr ⟨rfl, rfl⟩, rfl⟩
    · rw [if_neg h1]
      exact .inr (.inr ⟨h0, h1, rfl⟩)

/-- Everything a setter with a Boolean operand can do (R122). -/
theorem setFlag_cases (v : Byte) (write : Bool → State) :
    (v = 0 ∧ setFlag v write = .next (respond .void (write false))) ∨
      (v = 1 ∧ setFlag v write = .next (respond .void (write true))) ∨
      (v ≠ 0 ∧ v ≠ 1 ∧ setFlag v write = .refused .reservedOperand) := by
  unfold setFlag boolOperand
  by_cases h0 : v = 0
  · rw [if_pos h0]
    exact .inl ⟨h0, rfl⟩
  · rw [if_neg h0]
    by_cases h1 : v = 1
    · rw [if_pos h1]
      exact .inr (.inl ⟨h1, rfl⟩)
    · rw [if_neg h1]
      exact .inr (.inr ⟨h0, h1, rfl⟩)

/-- Everything a frame crossing the wire can do (42_transmit.md R180, 43_receive.md R201, 30_encoding.md R94). -/
theorem wireFrame_cases (dir : Direction) (dst h : Byte) (content : List Byte) (crc : Byte) (s : State) :
    (dir = .sent ∧ reservedBitsClear h = true ∧
        wireFrame dir dst h content crc s = .next (transmit dst (BitVec.ofNat 8 content.length) h content s).2) ∨
      (dir = .sent ∧ reservedBitsClear h = false ∧ wireFrame dir dst h content crc s = .refused .reservedHeaderBits) ∨
      (dir = .received ∧
        wireFrame dir dst h content crc s =
          .next { (receive1 (deliverFrame (frameBody dst h content ++ [crc]) s)).2 with env := s.env }) := by
  cases dir
  · cases hb : reservedBitsClear h
    · exact .inr (.inl ⟨rfl, rfl, by simp [wireFrame, sendFrame, hb]⟩)
    · exact .inl ⟨rfl, rfl, by simp [wireFrame, sendFrame, hb]⟩
  · exact .inr (.inr ⟨rfl, rfl⟩)

end Sys2Proof.Machine
end

