-- ==== Sys2Proof/Laws/PerInstr.lean ====
section
/-! SUPPORT. Per-instruction laws. `PacketLength`: the packet of a well-formed command has the length that its opcode, and for
`ENQUEUE` and `REPLY` its `len` operand, fix (30_encoding.md R111, R124). -/

namespace Sys2Proof.Laws

/-- The law, for one instruction. -/
def PacketLength.Statement (i : Instr) : Prop :=
  ∀ maxPackets, i.wellFormed maxPackets = true → (encode i).space = .command →
    commandLength (encode i).bytes = some (encode i).bytes.length

/-- The length of an `ENQUEUE` packet: 13 bytes and the payload (R114). -/
theorem enqueuePacket_length (dst : Byte) (rbus : BusId) (timing : Word) (hsel header : Byte) {payload : List Byte}
    (h : payload.length ≤ 255) :
    commandLength (enqueuePacket dst rbus timing hsel header payload).bytes =
      some (enqueuePacket dst rbus timing hsel header payload).bytes.length := by
  have hlen : (BitVec.ofNat 8 payload.length).toNat = payload.length := Nat.mod_eq_of_lt (by omega)
  have h13 : (enqueuePacket dst rbus timing hsel header payload).bytes.length = payload.length + 13 := rfl
  rw [h13]
  change some (13 + (BitVec.ofNat 8 payload.length).toNat) = _
  rw [hlen, Nat.add_comm]

theorem PacketLength.beginOp : PacketLength.Statement .beginOp :=
  fun _ _ _ => rfl

theorem PacketLength.update : PacketLength.Statement .update :=
  fun _ _ _ => rfl

theorem PacketLength.receive : PacketLength.Statement .receive :=
  fun _ _ _ => rfl

theorem PacketLength.receiveFor (duration : Word) : PacketLength.Statement (.receiveFor duration) :=
  fun _ _ _ => rfl

theorem PacketLength.enqueue (dst : Byte) (rbus : BusId) (timing : Word) (hsel : Byte) (header : Byte) (payload : List Byte) : PacketLength.Statement (.enqueue dst rbus timing hsel header payload) := by
  intro _ hw _
  have hw := of_decide_eq_true (Bool.and_eq_true_iff.1 hw).1
  exact enqueuePacket_length dst rbus timing hsel header hw

theorem PacketLength.reply (payload : List Byte) : PacketLength.Statement (.reply payload) := by
  intro _ hw _
  have hw := of_decide_eq_true hw
  have hlen : (BitVec.ofNat 8 payload.length).toNat = payload.length := Nat.mod_eq_of_lt (by omega)
  change some (2 + (BitVec.ofNat 8 payload.length).toNat) = some (payload.length + 2)
  rw [hlen, Nat.add_comm]

theorem PacketLength.remove (slot : Byte) : PacketLength.Statement (.remove slot) :=
  fun _ _ _ => rfl

theorem PacketLength.acquireId : PacketLength.Statement .acquireId :=
  fun _ _ _ => rfl

theorem PacketLength.getId : PacketLength.Statement .getId :=
  fun _ _ _ => rfl

theorem PacketLength.setId (id : Byte) : PacketLength.Statement (.setId id) :=
  fun _ _ _ => rfl

theorem PacketLength.setBusId (bus : BusId) : PacketLength.Statement (.setBusId bus) :=
  fun _ _ _ => rfl

theorem PacketLength.setShared (v : Byte) : PacketLength.Statement (.setShared v) :=
  fun _ _ _ => rfl

theorem PacketLength.setRouter (v : Byte) : PacketLength.Statement (.setRouter v) :=
  fun _ _ _ => rfl

theorem PacketLength.setSenderInfo (v : Byte) : PacketLength.Statement (.setSenderInfo v) :=
  fun _ _ _ => rfl

theorem PacketLength.setAck (v : Byte) : PacketLength.Statement (.setAck v) :=
  fun _ _ _ => rfl

theorem PacketLength.setAutoDelete (v : Byte) : PacketLength.Statement (.setAutoDelete v) :=
  fun _ _ _ => rfl

theorem PacketLength.setMode (m : Byte) : PacketLength.Statement (.setMode m) :=
  fun _ _ _ => rfl

theorem PacketLength.setPins (inPin : Byte) (outPin : Byte) : PacketLength.Statement (.setPins inPin outPin) :=
  fun _ _ _ => rfl

theorem PacketLength.send (dst : Byte) (bus : BusId) (payload : List Byte) : PacketLength.Statement (.send dst bus payload) := by
  intro _ hw _
  have hw := of_decide_eq_true hw
  exact enqueuePacket_length dst bus 0 0 0 hw

theorem PacketLength.sendH (dst : Byte) (bus : BusId) (payload : List Byte) (header : Byte) : PacketLength.Statement (.sendH dst bus payload header) := by
  intro _ hw _
  have hw := of_decide_eq_true (Bool.and_eq_true_iff.1 hw).1
  exact enqueuePacket_length dst bus 0 1 header hw

theorem PacketLength.sendRepeatedly (dst : Byte) (bus : BusId) (payload : List Byte) (timing : Word) : PacketLength.Statement (.sendRepeatedly dst bus payload timing) := by
  intro _ hw _
  have hw := of_decide_eq_true hw
  exact enqueuePacket_length dst bus timing 0 0 hw

theorem PacketLength.sendRepeatedlyH (dst : Byte) (bus : BusId) (payload : List Byte) (timing : Word) (header : Byte) : PacketLength.Statement (.sendRepeatedlyH dst bus payload timing header) := by
  intro _ hw _
  have hw := of_decide_eq_true (Bool.and_eq_true_iff.1 hw).1
  exact enqueuePacket_length dst bus timing 1 header hw

theorem PacketLength.tick : PacketLength.Statement .tick :=
  fun _ _ _ => rfl

theorem PacketLength.frameLocal (dir : Direction) (dst : Byte) (flags : BitVec 6) (payload : List Byte) (crc : Byte) : PacketLength.Statement (.frameLocal dir dst flags payload crc) :=
  fun _ _ h => nomatch h

theorem PacketLength.frameShared (dir : Direction) (dst : Byte) (flags : BitVec 6) (rbus : BusId) (payload : List Byte) (crc : Byte) : PacketLength.Statement (.frameShared dir dst flags rbus payload crc) :=
  fun _ _ h => nomatch h

theorem PacketLength.frameLocalSender (dir : Direction) (dst : Byte) (flags : BitVec 6) (sid : Byte) (payload : List Byte) (crc : Byte) : PacketLength.Statement (.frameLocalSender dir dst flags sid payload crc) :=
  fun _ _ h => nomatch h

theorem PacketLength.frameSharedSender (dir : Direction) (dst : Byte) (flags : BitVec 6) (rbus : BusId) (sbus : BusId) (sid : Byte) (payload : List Byte) (crc : Byte) : PacketLength.Statement (.frameSharedSender dir dst flags rbus sbus sid payload crc) :=
  fun _ _ h => nomatch h

theorem PacketLength.ack (dir : Direction) : PacketLength.Statement (.ack dir) :=
  fun _ _ h => nomatch h

theorem PacketLength.nak (dir : Direction) : PacketLength.Statement (.nak dir) :=
  fun _ _ h => nomatch h

theorem PacketLength.respVoid : PacketLength.Statement .respVoid :=
  fun _ _ h => nomatch h

theorem PacketLength.respSlot (slot : Byte) : PacketLength.Statement (.respSlot slot) :=
  fun _ _ h => nomatch h

theorem PacketLength.respEnqFail : PacketLength.Statement .respEnqFail :=
  fun _ _ h => nomatch h

theorem PacketLength.respOutcome (o : Outcome) : PacketLength.Statement (.respOutcome o) :=
  fun _ _ h => nomatch h

theorem PacketLength.respNoop : PacketLength.Statement .respNoop :=
  fun _ _ h => nomatch h

theorem PacketLength.respId (id : Byte) : PacketLength.Statement (.respId id) :=
  fun _ _ h => nomatch h

theorem PacketLength.rxevt (off : Byte) (len : Byte) (info : PacketInfo) : PacketLength.Statement (.rxevt off len info) :=
  fun _ _ h => nomatch h

theorem PacketLength.errevt (code : Byte) (data : Half) : PacketLength.Statement (.errevt code data) :=
  fun _ _ h => nomatch h

end Sys2Proof.Laws
end

