-- ==== Sys2Proof/Tests/Slice0.lean ====
section
/-! SUPPORT. Small tests: words of the spec's encodings, refused forms, the spec's own vectors (95_test_vectors.md), and for each
statement with hypotheses a state and operands that meet them. -/

set_option Elab.async false

namespace Sys2Proof.Tests

open Sys2Proof.Machine

/-! ### Helpers -/

/-- A device with id 12 and two slots, and the answers supplied to it. -/
def device (senses : List Bool) (bytes : List Byte) (resps : List Half) (elapsed : List Nat) (draws : List Nat) : State :=
  { State.resetWith { maxPackets := 2, initDeviceId := 12 } with
    env := { senseIn := senses, byteIn := bytes.map some ++ [none], respIn := resps, elapsedIn := elapsed, drawIn := draws,
             time := 0, draws := 0 } }

/-- A pending slot with one payload byte for destination 7. -/
def packet (b : Byte) (timing : Word) (attempts : Byte) : Slot :=
  { state := .toBeSent, destination := 7, header := 4, content := [b], length := 1, registration := 0, attempts := attempts,
    timing := timing }

/-- The device with one pending slot, a clock that reads 10000000, an idle medium and the response `r`. -/
def sending (r : Half) (p : Slot) : State :=
  { device [true] [] [r, 6] [10000000, 5, 5] [3] with queue := [p, Slot.empty] }

/-- The next state, or reset where there is none. -/
def after (o : Host.Outcome State Fault Refusal) : State :=
  match o with
  | .next s => s
  | .fault _ => State.reset
  | .refused _ => State.reset

/-- Whether an outcome is a next state. -/
def isNext (o : Host.Outcome State Fault Refusal) : Bool :=
  match o with
  | .next _ => true
  | .fault _ => false
  | .refused _ => false

/-- The refusal, if any. -/
def refusal (o : Host.Outcome State Fault Refusal) : Option Refusal :=
  match o with
  | .next _ => none
  | .fault _ => none
  | .refused r => some r

/-- The entries a next state has in its trace. -/
def traceOf (o : Host.Outcome State Fault Refusal) : List Entry := (after o).trace

/-- The instruction of a packet, if it decodes. -/
def decoded (space : Space) (bytes : List Byte) : Option Instr :=
  match decode ⟨space, bytes⟩ with
  | .ok i => some i
  | .error _ => none

/-- The device while `RECEIVE_FOR 1000`, started at time 0, runs. -/
def receivingFor (bytes : List Byte) (elapsed : List Nat) : State :=
  { device [] bytes [] elapsed [] with running := .receiveFor 0 1000 }

/-- The unassigned device inside the scan for candidate `k`. -/
def acquiring (r : Running) (id : Byte) (p : Slot) (elapsed : List Nat) : State :=
  { sending 256 p with running := r, deviceId := id, env := { (sending 256 p).env with elapsedIn := elapsed } }

/-- The frame of scenario S1 with its CRC corrected. -/
def frameS1 : List Byte := [0x0C, 0x05, 0x04, 0x40, 0x5A]

/-! ### Words written out from the encodings (30_encoding.md R90, R95, R99, R112 to R120) decode to their instruction -/

theorem test_decode_begin : decoded .command [0x01] = some .beginOp := by decide
theorem test_decode_update : decoded .command [0x02] = some .update := by decide
theorem test_decode_receive : decoded .command [0x03] = some .receive := by decide
theorem test_decode_receiveFor : decoded .command [0x04, 0x01, 0x02, 0x03, 0x04] = some (.receiveFor 0x04030201) := by decide
theorem test_decode_enqueue :
    decoded .command [0x05, 0x0C, 1, 2, 3, 4, 0x0A, 0x0B, 0x0C, 0x0D, 1, 7, 2, 0x41, 0x42] = some (.enqueue 12 ⟨1, 2, 3, 4⟩ 0x0D0C0B0A 1 7 [0x41, 0x42]) :=
  by decide
theorem test_decode_reply : decoded .command [0x06, 0x02, 0x6F, 0x6B] = some (.reply [0x6F, 0x6B]) := by decide
theorem test_decode_remove : decoded .command [0x07, 0x03] = some (.remove 3) := by decide
theorem test_decode_acquireId : decoded .command [0x08] = some .acquireId := by decide
theorem test_decode_getId : decoded .command [0x09] = some .getId := by decide
theorem test_decode_setId : decoded .command [0x10, 0x0C] = some (.setId 12) := by decide
theorem test_decode_setBusId : decoded .command [0x11, 0x7F, 0x00, 0x00, 0x01] = some (.setBusId ⟨127, 0, 0, 1⟩) := by decide
theorem test_decode_setShared : decoded .command [0x12, 0x01] = some (.setShared 1) := by decide
theorem test_decode_setRouter : decoded .command [0x13, 0x01] = some (.setRouter 1) := by decide
theorem test_decode_setSenderInfo : decoded .command [0x14, 0x01] = some (.setSenderInfo 1) := by decide
theorem test_decode_setAck : decoded .command [0x15, 0x00] = some (.setAck 0) := by decide
theorem test_decode_setAutoDelete : decoded .command [0x16, 0x00] = some (.setAutoDelete 0) := by decide
theorem test_decode_setMode : decoded .command [0x17, 0x96] = some (.setMode 150) := by decide
theorem test_decode_setPins : decoded .command [0x18, 0x0C, 0x0D] = some (.setPins 12 13) := by decide
theorem test_decode_frameLocal :
    decoded (.frame .received) [0x0C, 0x05, 0x04, 0x40, 0x5A] = some (.frameLocal .received 12 1 [0x40] 0x5A) :=
  by decide
theorem test_decode_frameShared :
    decoded (.frame .sent) [0x09, 0x0A, 0x05, 0x0A, 0, 0, 1, 0x41, 0x42, 0x5D] = some (.frameShared .sent 9 1 ⟨10, 0, 0, 1⟩ [0x41, 0x42] 0x5D) :=
  by decide
theorem test_decode_frameLocalSender :
    decoded (.frame .received) [0x0C, 0x07, 0x06, 0x09, 0x68, 0x69, 0x7E] = some (.frameLocalSender .received 12 1 9 [0x68, 0x69] 0x7E) :=
  by decide
theorem test_decode_frameSharedSender :
    decoded (.frame .sent) [0, 0x0F, 3, 0x0A, 0, 0, 1, 0x7F, 0, 0, 1, 5, 0x48, 0x49, 0xB1] = some (.frameSharedSender .sent 0 0 ⟨10, 0, 0, 1⟩ ⟨127, 0, 0, 1⟩ 5 [0x48, 0x49] 0xB1) :=
  by decide
theorem test_decode_ack : decoded (.symbol .received) [6] = some (.ack .received) := by decide
theorem test_decode_nak : decoded (.symbol .sent) [21] = some (.nak .sent) := by decide
theorem test_decode_respVoid : decoded .response [0x00, 0x00, 0x00] = some .respVoid := by decide
theorem test_decode_respSlot : decoded .response [0x01, 0x03, 0x00] = some (.respSlot 3) := by decide
theorem test_decode_respEnqFail : decoded .response [0x02, 0x00, 0x01] = some .respEnqFail := by decide
theorem test_decode_respOutcome : decoded .response [0x03, 0x9A, 0x02] = some (.respOutcome .busy) := by decide
theorem test_decode_respNoop : decoded .response [0x04, 0x00, 0x00] = some .respNoop := by decide
theorem test_decode_respId : decoded .response [0x05, 0xFF, 0x00] = some (.respId 255) := by decide
theorem test_decode_rxevt :
    decoded .event [0xE0, 12, 2, 3, 0, 10, 0, 0, 1, 127, 0, 0, 1, 5] = some (.rxevt 12 2 ⟨0, 3, ⟨10, 0, 0, 1⟩, ⟨127, 0, 0, 1⟩, 5⟩) :=
  by decide
theorem test_decode_errevt : decoded .event [0xE1, 0x68, 0x0C, 0x01] = some (.errevt 104 268) := by decide

/-- A pseudo-command has the words of its expansion (R126, the example of R125). -/
theorem test_encode_send :
    (encode (.send 12 BusId.zero [0x40])).bytes =
      [0x05, 0x0C, 0, 0, 0, 0, 0, 0, 0, 0, 0, 0, 0x01, 0x40] :=
  by decide
theorem test_encode_tick : (encode .tick).bytes = [0x02] := by decide
theorem test_encode_sendH :
    decode (encode (.sendH 12 BusId.zero [0x40] 7)) = .ok (.enqueue 12 BusId.zero 0 1 7 [0x40]) :=
  rfl
theorem test_encode_sendRepeatedly :
    decode (encode (.sendRepeatedly 12 BusId.zero [0x40] 500)) = .ok (.enqueue 12 BusId.zero 500 0 0 [0x40]) :=
  rfl
theorem test_encode_sendRepeatedlyH :
    decode (encode (.sendRepeatedlyH 1 BusId.zero [9] 500 2)) = .ok (.enqueue 1 BusId.zero 500 1 2 [9]) :=
  rfl

/-! ### Packets that are no instruction (R111, R118, R121) -/

theorem test_refused_reserved_opcode_00 : decoded .command [0x00] = none := by decide
theorem test_refused_reserved_opcode_0A : decoded .command [0x0A] = none := by decide
theorem test_refused_reserved_opcode_0F : decoded .command [0x0F] = none := by decide
theorem test_refused_reserved_opcode_19 : decoded .command [0x19] = none := by decide
theorem test_refused_reserved_opcode_FF : decoded .command [0xFF] = none := by decide
theorem test_refused_empty : decoded .command [] = none := by decide
theorem test_refused_update_with_operand : decoded .command [0x02, 0x00] = none := by decide
theorem test_refused_setBusId_short : decoded .command [0x11, 0, 0, 0] = none := by decide
theorem test_refused_enqueue_len_disagrees :
    decoded .command [0x05, 0x0C, 0, 0, 0, 0, 0, 0, 0, 0, 0, 0, 2, 0x40] = none :=
  by decide
theorem test_refused_reply_len_disagrees : decoded .command [0x06, 1] = none := by decide
theorem test_refused_frame_length_disagrees : decoded (.frame .received) [0x0C, 0x06, 0x04, 0x40, 0x5A] = none := by decide
theorem test_refused_frame_shorter_than_header :
    decoded (.frame .received) [0x0D, 0x05, 0x05, 0x01, 0x09] = none :=
  by decide
theorem test_refused_symbol_garbled : decoded (.symbol .received) [7] = none := by decide
theorem test_refused_response_bad_value : decoded .response [0x00, 0x01, 0x00] = none := by decide
theorem test_refused_response_bad_outcome : decoded .response [0x03, 0x07, 0x00] = none := by decide
theorem test_refused_event_bad_tag : decoded .event [0xE2] = none := by decide

/-! ### WellFormed refuses an ill-formed term of each kind (R94, R97, R118, R122) -/

theorem test_illFormed_bool : Instr.wellFormed 10 (.setAck 2) = false := by decide +kernel
theorem test_illFormed_mode : Instr.wellFormed 10 (.setMode 149) = false := by decide +kernel
theorem test_illFormed_slot : Instr.wellFormed 10 (.remove 10) = false := by decide +kernel
theorem test_illFormed_hsel : Instr.wellFormed 10 (.enqueue 1 BusId.zero 0 2 0 []) = false := by decide +kernel
theorem test_illFormed_header : Instr.wellFormed 10 (.enqueue 1 BusId.zero 0 1 8 []) = false := by decide +kernel
theorem test_illFormed_sendH_header : Instr.wellFormed 10 (.sendH 1 BusId.zero [] 0x80) = false := by decide +kernel
theorem test_illFormed_payload : Instr.wellFormed 10 (.reply (List.replicate 256 0)) = false := by decide +kernel
theorem test_illFormed_frame_crc : Instr.wellFormed 10 (.frameLocal .sent 12 1 [0x40] 0x5B) = false := by decide +kernel
theorem test_illFormed_frame_reserved :
    Instr.wellFormed 10 (.frameLocal .sent 12 2 [0x40] (crc8 [12, 5, 8, 0x40])) = false :=
  by decide +kernel
theorem test_illFormed_frame_length :
    Instr.wellFormed 10 (.frameShared .received 1 0 BusId.zero (List.replicate 248 0) 0) = false :=
  by decide +kernel
theorem test_illFormed_respSlot : Instr.wellFormed 10 (.respSlot 10) = false := by decide +kernel
theorem test_illFormed_errevt_low : Instr.wellFormed 10 (.errevt 100 0) = false := by decide +kernel
theorem test_illFormed_errevt_high : Instr.wellFormed 10 (.errevt 106 0) = false := by decide +kernel
theorem test_wellFormed_enqueue_auto : Instr.wellFormed 10 (.enqueue 1 BusId.zero 0 0 0xFF []) = true := by decide +kernel
theorem test_wellFormed_frame_received_any_crc :
    Instr.wellFormed 10 (.frameLocal .received 12 63 [0x40] 0) = true :=
  by decide +kernel
theorem test_wellFormed_frame_sent : Instr.wellFormed 10 (.frameLocal .sent 12 1 [0x40] 0x5A) = true := by decide +kernel
theorem test_wellFormed_reply_255 : Instr.wellFormed 10 (.reply (List.replicate 255 0)) = true := by decide +kernel
theorem test_wellFormed_remove_last : Instr.wellFormed 10 (.remove 9) = true := by decide +kernel

/-! ### The codec (95_test_vectors.md 2.1 to 2.3) -/

theorem test_crc_first_step : crc8Update 0x00 0x0C = 0xA3 := by decide +kernel
theorem test_crc_check_value : crc8 [0x31, 0x32, 0x33, 0x34, 0x35, 0x36, 0x37, 0x38, 0x39] = 0xA1 := by decide +kernel
theorem test_encode_header7 :
    encodeFrame 9 7 ⟨10, 0, 0, 1⟩ ⟨127, 0, 0, 1⟩ 5 [0x41, 0x42] =
      [0x09, 0x0F, 0x07, 0x0A, 0, 0, 1, 0x7F, 0, 0, 1, 5, 0x41, 0x42, 0xCF] :=
  by decide +kernel
theorem test_encode_empty_payload :
    encodeFrame 9 2 BusId.zero BusId.zero 5 [] = [0x09, 0x05, 0x02, 0x05, 0x08] :=
  by decide +kernel
theorem test_decode_info :
    decodeInfo [0x0C, 0x07, 0x06, 0x09, 0x68, 0x69, 0x7E] = ⟨12, 6, BusId.zero, BusId.zero, 9⟩ :=
  by decide +kernel
theorem test_short_frame_invalid : frameValid [0x0D, 0x05, 0x05, 0x01, 0x09] = false := by decide +kernel

/-! ### Commands, one step each (95_test_vectors.md 2.4 to 2.12) -/

/-- The example of R240. -/
theorem test_begin :
    traceOf (exec .beginOp (device [] [] [] [] [250])) =
      [.seed, .random 1000 250, .delay 250000, .response .void] :=
  by decide +kernel
/-- The example of R250. -/
theorem test_getId_after_reset : traceOf (exec .getId State.reset) = [.response (.id 255)] := by decide +kernel
theorem test_setId : (after (exec (.setId 12) State.reset)).deviceId = 12 := by decide +kernel
theorem test_setBusId_keeps_shared :
    (after (exec (.setBusId ⟨127, 0, 0, 1⟩) State.reset)).shared = false :=
  by decide +kernel
theorem test_setShared : (after (exec (.setShared 1) State.reset)).shared = true := by decide +kernel
theorem test_setRouter : (after (exec (.setRouter 1) State.reset)).router = true := by decide +kernel
theorem test_setSenderInfo : (after (exec (.setSenderInfo 1) State.reset)).senderInfoEn = true := by decide +kernel
theorem test_setAck : (after (exec (.setAck 0) State.reset)).acknowledge = false := by decide +kernel
theorem test_setAutoDelete : (after (exec (.setAutoDelete 0) State.reset)).autoDelete = false := by decide +kernel
theorem test_setMode : (after (exec (.setMode 150) State.reset)).commMode = .simplex := by decide +kernel
theorem test_setPins : (after (exec (.setPins 12 13) State.reset)).outputPin = 13 := by decide +kernel
/-- The example of R150, with the clock at 9. -/
theorem test_enqueue_S1 :
    slotAt (after (exec (.enqueue 12 BusId.zero 0 0 0 [0x40]) (device [] [] [] [9] []))) 0 =
      { packet 0x40 0 0 with destination := 12, registration := 9 } :=
  by decide +kernel
/-- 2.5: header 3 and 37 payload bytes. -/
theorem test_enqueue_too_long :
    traceOf (exec (.enqueue 1 BusId.zero 0 1 3 (List.replicate 37 0)) (device [] [] [] [] [])) =
      [.errevt .contentTooLong 50, .response .enqFail] :=
  by decide +kernel
theorem test_enqueue_full :
    traceOf (exec (.enqueue 1 BusId.zero 0 0 0 [1])
      { device [] [] [] [] [] with queue := [packet 1 0 0, packet 2 0 0] }) =
      [.errevt .packetsBufferFull 2, .response .enqFail] :=
  by decide +kernel
/-- 2.4, last row. -/
theorem test_send_shared_sender :
    (slotAt (after (exec (.send 9 ⟨10, 0, 0, 1⟩ [0x41, 0x42])
      { device [] [] [] [9] [] with deviceId := 5, busId := ⟨127, 0, 0, 1⟩, shared := true, senderInfoEn := true })) 0).content =
      [0x0A, 0, 0, 1, 0x7F, 0, 0, 1, 5, 0x41, 0x42] :=
  by decide +kernel
theorem test_sendH_header :
    (slotAt (after (exec (.sendH 9 BusId.zero [0x41] 0) (device [] [] [] [9] []))) 0).header = 0 :=
  by decide +kernel
theorem test_sendRepeatedly_timing :
    (slotAt (after (exec (.sendRepeatedly 9 BusId.zero [0x41] 500) (device [] [] [] [9] []))) 0).timing = 500 :=
  by decide +kernel
theorem test_sendRepeatedlyH :
    (slotAt (after (exec (.sendRepeatedlyH 9 BusId.zero [0x41] 500 2) (device [] [] [] [9] []))) 0).content = [12, 0x41] :=
  by decide +kernel
theorem test_remove : slotAt (after (exec (.remove 0) (sending 6 (packet 0x41 0 3)))) 0 = Slot.empty := by decide +kernel
theorem test_remove_out_of_range :
    refusal (exec (.remove 2) (device [] [] [] [] [])) = some .reservedOperand :=
  by decide +kernel
/-- The example of R180. -/
theorem test_update_S1 :
    traceOf (exec .update (sending 6 { packet 0x40 0 0 with destination := 12 })) =
      [.now 10000000, .canStart true, .sendByte 0x0C, .sendByte 0x05, .sendByte 0x04, .sendByte 0x40, .sendByte 0x5A,
        .receiveResponse 6, .response .void] :=
  by decide +kernel
theorem test_update_frees : slotAt (after (exec .update (sending 6 (packet 0x41 0 3)))) 0 = Slot.empty := by decide +kernel
theorem test_tick_garbled :
    (traceOf (exec .tick (sending 7 (packet 0x41 0 3)))).drop 7 =
      [.receiveResponse 7, .random 16 3, .delay 3, .response .void] :=
  by decide +kernel
theorem test_tick_connection_lost :
    events (traceOf (exec .tick (sending 256 (packet 0x41 500 125)))) = [.errevt .connectionLost 7] :=
  by decide +kernel
theorem test_probe_adopts : (after (exec .update (sending 256 (packet 63 0 125)))).deviceId = 7 := by decide +kernel
/-- R168(c). -/
theorem test_wrap_of_attempts :
    slotAt (after (exec .update { sending 256 (packet 0x41 0 255) with
      autoDelete := false, env := { (sending 256 (packet 0x41 0 255)).env with elapsedIn := [16581376] } })) 0 =
      { packet 0x41 0 0 with state := .fail } :=
  by decide +kernel
theorem test_due_not_yet : due { packet 1 0 3 with registration := 1000 } 1027 = false := by decide +kernel
/-- 2.6: the clock wrapped. -/
theorem test_due_wrapped : due { packet 1 0 0 with registration := 0xFFFFFFFFFFFFFFF6 } 5 = true := by decide +kernel
/-- The example (a) of R219. -/
theorem test_receive_S1 :
    traceOf (exec .receive (device [] frameS1 [] [] [])) =
      frameS1.map (fun b => Entry.receiveByte (some b)) ++
        [.sendResponse 6, .rxevt 3 1 ⟨12, 4, BusId.zero, BusId.zero, 0⟩, .response (.outcome .ack)] :=
  by decide +kernel
/-- The example (c) of R219. -/
theorem test_receive_bad_crc :
    traceOf (exec .receive (device [] [0x0C, 0x05, 0x04, 0x40, 0x5B] [] [] [])) =
      [0x0C, 0x05, 0x04, 0x40, 0x5B].map (fun b => Entry.receiveByte (some b)) ++ [.sendResponse 21, .response (.outcome .nak)] :=
  by decide +kernel
/-- The example (b) of R219: four reads and the response. -/
theorem test_receive_S3 :
    (traceOf (exec .receive { device [] [0x0C, 9, 5, 2, 2, 2, 2, 0x41, 0x5A] [] [] [] with
      shared := true, busId := ⟨1, 1, 1, 1⟩ })).length = 5 :=
  by decide +kernel
theorem test_receive_failed_read :
    traceOf (exec .receive (device [] [] [] [] [])) = [.receiveByte none, .response (.outcome .fail)] :=
  by decide +kernel
/-- The example of R230, first turn. -/
theorem test_receiveFor_runs_on :
    (after (exec (.receiveFor 1000) (device [] [] [] [0, 400] []))).running = .receiveFor 0 1000 :=
  by decide +kernel
/-- The example of R230, last turn. -/
theorem test_receiveFor_ends :
    traceOf (step (receivingFor [] [1300])) = [.receiveByte none, .now 1300, .response (.outcome .fail)] :=
  by decide +kernel
/-- The example of R251. -/
theorem test_reply_S6 :
    (slotAt (after (exec (.reply [0x6F, 0x6B])
      { device [] [] [] [9] [] with lpi := ⟨12, 6, BusId.zero, BusId.zero, 9⟩, lpiValid := true })) 0) =
      { packet 0 0 0 with destination := 9, content := [0x6F, 0x6B], length := 2, registration := 9 } :=
  by decide +kernel
theorem test_reply_refused : refusal (exec (.reply []) State.reset) = some .replyBeforeAccept := by decide +kernel
theorem test_acquireId_first_probe :
    (slotAt (after (exec .acquireId (device [] [] [] [1, 1, 1] []))) 0).content = [63] :=
  by decide +kernel
theorem test_acquireId_turn_fails :
    traceOf (step (acquiring (.acquireScan 0 1) 255 (packet 63 0 0) [5000000])) =
      [.now 5000000, .errevt .idAcquisitionFail 256, .response .void] :=
  by decide +kernel
theorem test_frameLocal_sent :
    traceOf (exec (.frameLocal .sent 12 1 [0x40] 0x5A) (device [true] [] [6] [] [])) =
      .canStart true :: frameS1.map Entry.sendByte ++ [.receiveResponse 6] :=
  by decide +kernel
theorem test_frameLocalSender_received :
    (after (exec (.frameLocalSender .received 12 1 9 [0x68, 0x69] 0x7E) (device [] [] [] [] []))).lpi.senderId = 9 :=
  by decide +kernel
theorem test_frameShared_received_busy :
    (after (exec (.frameShared .received 12 1 BusId.zero [1] 0) (device [] [] [] [] []))).lpiValid = false :=
  by decide +kernel
/-- Scenario S2: no response is awaited. -/
theorem test_frameSharedSender_sent :
    (traceOf (exec (.frameSharedSender .sent 0 0 ⟨10, 0, 0, 1⟩ ⟨127, 0, 0, 1⟩ 5 [0x48, 0x49] 0xB1) (device [true] [] [] [] []))).getLast? =
      some (.sendByte 0xB1) :=
  by decide +kernel
theorem test_ack_sent : traceOf (exec (.ack .sent) State.reset) = [.sendResponse 6] := by decide +kernel
theorem test_nak_received :
    traceOf (exec (.nak .received) (device [] [] [] [] [3])) = [.receiveResponse 21, .random 16 3, .delay 3] :=
  by decide +kernel
theorem test_records : traceOf (exec (.respSlot 1) (device [] [] [] [] [])) = [.response (.slot 1)] := by decide +kernel
theorem test_errevt_row : traceOf (exec (.errevt 101 7) State.reset) = [.errevt .connectionLost 7] := by decide +kernel
theorem test_rxbuf_unwritten : State.reset.rxbuf.read 0 = none := by decide +kernel
theorem test_rxbuf_after_receive :
    (after (exec .receive (device [] frameS1 [] [] []))).rxbuf.read 3 = some 0x40 :=
  by decide +kernel

/-! ### The fetch interface -/

theorem test_table_word_runs :
    decodeTableWord 8 0x09 = some .getId ∧ traceOf (step (State.reset.withFetchWord 8 0x09)) = [.response (.id 255)] :=
  by decide +kernel
theorem test_table_word_enqueue :
    decodeTableWord 112 (0x05 + 0x0C * 2 ^ 8 + 2 ^ 96 + 0x40 * 2 ^ 104) = some (.enqueue 12 BusId.zero 0 0 0 [0x40]) :=
  by decide +kernel

/-- A word of a row that is no command decodes, and is refused as a command packet (R121, R127). -/
theorem test_table_word_event :
    decodeTableWord 32 (0xE1 + 104 * 2 ^ 8 + 50 * 2 ^ 16) = some (.errevt 104 50) ∧
      refusal (step (State.reset.withFetchWord 32 (0xE1 + 104 * 2 ^ 8 + 50 * 2 ^ 16))) =
        some (.invalidPacket (.reservedOpcode 0xE1)) :=
  by decide +kernel
/-- A received frame row that is abandoned after one byte leaves the strategy's answers as they were (R325). -/
theorem test_frame_row_keeps_the_outside :
    let s := device [] [7, 8] [] [] []
    traceOf (exec (.frameLocal .received 13 1 [0x40] 0) s) = [.receiveByte (some 13)] ∧
      (after (exec (.frameLocal .received 13 1 [0x40] 0) s)).env = s.env :=
  by decide +kernel
/-- A frame shorter than its header needs, with a right CRC, takes the `NAK` path (R210). -/
theorem test_receive_short_frame :
    traceOf (exec .receive (device [] [12, 5, 6, 9, crc8 [12, 5, 6, 9]] [] [] [])) =
        [.receiveByte (some 12), .receiveByte (some 5), .receiveByte (some 6), .receiveByte (some 9),
          .receiveByte (some (crc8 [12, 5, 6, 9])), .sendResponse 6,
          .rxevt 4 0 ⟨12, 6, BusId.zero, BusId.zero, 9⟩, .response (.outcome .ack)] ∧
      (traceOf (exec .receive
          { device [] [12, 5, 7, 9, crc8 [12, 5, 7, 9]] [] [] [] with router := true })).drop 5 =
        [.sendResponse 21, .response (.outcome .nak)] :=
  by decide +kernel

/-! ### Witnesses: for each statement with hypotheses, a state and operands that meet them, one for each clause -/

theorem test_witness_DecodeEncodeRoundTrip :
    Instr.wellFormed 10 (.enqueue 1 ⟨1, 2, 3, 4⟩ 7 1 7 [1, 2]) = true ∧
      Instr.wellFormed 10 (.frameLocal .sent 12 1 [0x40] 0x5A) = true :=
  by decide +kernel
theorem test_witness_EncodeDecodeRoundTrip :
    decode ⟨.frame .received, frameS1⟩ = .ok (.frameLocal .received 12 1 [0x40] 0x5A) :=
  rfl
theorem test_witness_InvalidCommandPacketsRefused :
    ((0 : Byte).toNat = 0) ∧ (0x0A ≤ (0x0A : Byte).toNat ∧ (0x0F : Byte).toNat ≤ 0x0F) ∧ (0x19 ≤ (0xFF : Byte).toNat) ∧
      (placeCommand [2, 0] State.reset).running = .idle ∧
      (placeCommand [2, 0] State.reset).inbox = [[2, 0]] ∧ commandLength [2, 0] ≠ some 2 :=
  by decide +kernel
theorem test_witness_ReservedOperandsRefused :
    ((2 : Byte) ≠ 0 ∧ (2 : Byte) ≠ 1) ∧ ((149 : Byte) ≠ 150 ∧ (149 : Byte) ≠ 151) ∧
      State.reset.queue.length ≤ (10 : Byte).toNat ∧ (8 : Byte) >>> 3 ≠ 0 :=
  by decide +kernel
theorem test_witness_ReservedRowFormsRefused :
    (8 : Byte) >>> 3 ≠ 0 ∧ (2 : BitVec 6) >>> 1 ≠ 0 ∧ State.reset.queue.length ≤ (10 : Byte).toNat ∧
      (100 : Byte).toNat < 101 ∧ 105 < (106 : Byte).toNat :=
  by decide +kernel
theorem test_witness_StepRunsTheDecodedInstruction :
    (placeCommand [9] State.reset).running = .idle ∧
      (placeCommand [9] State.reset).inbox = [9] :: [] ∧ decoded .command [9] = some .getId :=
  by decide +kernel
theorem test_witness_NoCommandTakenWhileOneRuns :
    (State.reset.running = .idle ∧ State.reset.inbox = []) ∧ (receivingFor [] []).running ≠ .idle :=
  by decide +kernel
theorem test_witness_OverheadByLowHeaderBits :
    (0x04 : Byte).extractLsb' 0 2 = 0 ∧ (0xFD : Byte).extractLsb' 0 2 = 1 ∧ (0x06 : Byte).extractLsb' 0 2 = 2 ∧
      (0x07 : Byte).extractLsb' 0 2 = 3 :=
  by decide +kernel
theorem test_witness_FrameDecodesToWhatWasEncoded :
    overhead 7 + (List.replicate 36 (0xAA : Byte)).length + 1 < 50 ∧ 50 ≤ 255 :=
  by decide +kernel
theorem test_witness_EnqueueTakesTheLowestFreeSlot :
    let s := sending 6 (packet 1 0 0)
    HeaderUsed s 0 0xFF 4 ∧ HeaderUsed s 1 7 7 ∧ LowestFree s 1 ∧
      overhead 4 + (List.replicate 45 (0x55 : Byte)).length + 1 < s.packetMaxLength ∧
      overhead 7 + (List.replicate 36 (0xAA : Byte)).length + 1 < s.packetMaxLength :=
  by decide +kernel
theorem test_witness_SendVariantsTakeTheLowestFreeSlot :
    LowestFree State.reset 0 ∧
      overhead (headerOfBits State.reset.shared State.reset.senderInfoEn State.reset.acknowledge) + [(1 : Byte)].length + 1 <
        State.reset.packetMaxLength ∧
      (7 : Byte) >>> 3 = 0 ∧ overhead 7 + [(1 : Byte)].length + 1 < State.reset.packetMaxLength :=
  by decide +kernel
theorem test_witness_EnqueueTooLongFails :
    HeaderUsed State.reset 0 0 4 ∧
      State.reset.packetMaxLength ≤ overhead 4 + (List.replicate 46 (0 : Byte)).length + 1 :=
  by decide +kernel
theorem test_witness_EnqueueOnAFullQueueFails :
    let s := { State.reset with queue := [packet 1 0 0, packet 2 0 0] }
    HeaderUsed s 0 0 4 ∧ overhead 4 + [(1 : Byte)].length + 1 < s.packetMaxLength ∧ ∀ p ∈ s.queue, p.state ≠ .free :=
  by decide +kernel
theorem test_witness_RemoveFreesTheSlot :
    (9 : Byte).toNat < State.reset.queue.length ∧ slotAt State.reset 9 = Slot.empty ∧
      State.reset.queue.length ≤ (10 : Byte).toNat :=
  by decide +kernel
theorem test_witness_PortTransactionsAreRecorded : 0 < 16 ∧ 0 < 1000 :=
  by decide
theorem test_witness_ResponseClassification :
    (receiveResponse (device [] [] [6] [] [])).1 = 6 ∧ (receiveResponse (device [] [] [256] [] [])).1 = 0x100 ∧
      (receiveResponse (device [] [] [21] [] [])).1 = 21 ∧ (receiveResponse (device [] [] [255] [] [])).1 ≠ 6 ∧
      (receiveResponse (device [] [] [255] [] [])).1 ≠ 0x100 ∧ (receiveResponse (device [] [] [255] [] [])).1 ≠ 21 :=
  by decide +kernel
/-- The hypotheses of `TransmitPutsTheEncodedFrameOnTheWire` for slot 0 and a payload of one byte. -/
def holdsPacket (s : State) : Bool :=
  decide ((slotAt s 0).content = framePrefix (slotAt s 0).header BusId.zero BusId.zero 0 ++ [0x40]) &&
    decide ((slotAt s 0).length.toNat = (slotAt s 0).content.length)

theorem test_witness_TransmitPutsTheEncodedFrameOnTheWire :
    let s := sending 6 (packet 0x40 0 0)
    holdsPacket s = true ∧ s.commMode = .halfDuplex ∧ (canStart s).1 = true ∧ s.acknowledge = true ∧
      (slotAt s 0).destination ≠ 0 :=
  by decide +kernel
theorem test_witness_TransmitPutsTheEncodedFrameOnTheWire_others :
    let s := sending 6 (packet 0x40 0 0)
    let busy := { s with env := { s.env with senseIn := [false] } }
    let broadcast := sending 6 { packet 0x40 0 0 with destination := 0 }
    (holdsPacket { s with commMode := .simplex } = true ∧ { s with commMode := .simplex }.commMode = .simplex) ∧
      (holdsPacket busy = true ∧ busy.commMode = .halfDuplex ∧ (canStart busy).1 = false) ∧
      (holdsPacket { s with acknowledge := false } = true ∧ (canStart { s with acknowledge := false }).1 = true ∧
        { s with acknowledge := false }.acknowledge = false) ∧
      (holdsPacket broadcast = true ∧ (canStart broadcast).1 = true ∧ (slotAt broadcast 0).destination = 0) :=
  by decide +kernel
/-- The hypotheses of `SlotTransitions` for slot 0 of a state, with the outcome of the transmission. -/
def pendingWith (s : State) (o : Outcome) (isDue : Bool) : Bool :=
  decide (0 < s.queue.length) && decide ((slotAt s 0).state ≠ .free) && decide ((transmitSlot 0 (now s).2).1 = o) &&
    decide (due (slotAt s 0) (now s).1 = isDue)

theorem test_witness_SlotTransitions :
    pendingWith (device [] [] [] [0] []) .ack false = false ∧
      pendingWith { sending 6 (packet 1 0 0) with env := { (sending 6 (packet 1 0 0)).env with elapsedIn := [0] } } .ack false = true ∧
      pendingWith { sending 6 (packet 1 0 0) with env := { (sending 6 (packet 1 0 0)).env with senseIn := [false] } } .busy true = true ∧
      pendingWith (sending 21 (packet 1 0 0)) .nak true = true ∧ pendingWith (sending 6 (packet 1 0 0)) .ack true = true ∧
      pendingWith (sending 6 (packet 1 500 0)) .ack true = true ∧
      pendingWith { sending 6 (packet 1 0 0) with autoDelete := false } .ack true = true :=
  by decide +kernel
theorem test_witness_SlotTransitions_fail :
    pendingWith (sending 256 (packet 1 0 124)) .fail true = true ∧ ((124 : Byte) + 1).toNat ≤ 125 ∧
      pendingWith (sending 256 (packet 63 0 125)) .fail true = true ∧ isAcquireProbe (packet 63 0 125) = true ∧
      pendingWith (sending 7 (packet 1 0 125)) .fail true = true ∧ isAcquireProbe (packet 1 0 125) = false ∧
      pendingWith (sending 256 (packet 1 500 125)) .fail true = true ∧
      pendingWith { sending 256 (packet 1 0 125) with autoDelete := false } .fail true = true ∧ 125 < ((125 : Byte) + 1).toNat :=
  by decide +kernel
theorem test_witness_AcquireProbeIsTheSingleByte :
    (packet 63 0 0).content = framePrefix (packet 63 0 0).header BusId.zero BusId.zero 0 ++ [63] ∧
      (packet 63 0 0).length.toNat = (packet 63 0 0).content.length :=
  by decide +kernel
theorem test_witness_UpdateWithNothingPending :
    ∀ p ∈ State.reset.queue, p.state = .free :=
  by decide +kernel
theorem test_witness_UpdateDeliversAnAcknowledgedPacket :
    let s := sending 6 (packet 0x40 0 0)
    0 < s.queue.length ∧ (slotAt s 0).state ≠ .free ∧ (∀ j, j < s.queue.length → j ≠ 0 → (slotAt s j).state = .free) ∧
      s.commMode = .halfDuplex ∧ s.acknowledge = true ∧ s.autoDelete = true ∧ (slotAt s 0).timing = 0 ∧
      (slotAt s 0).destination ≠ 0 ∧ (slotAt s 0).length.toNat = (slotAt s 0).content.length ∧
      due (slotAt s 0) (clockValue (passTime s.env)) = true ∧ s.env.senseIn = true :: [] ∧ s.env.respIn = 6 :: [6] :=
  by decide +kernel
theorem test_witness_UpdateServesSlotsInIndexOrder :
    0 ≤ State.reset.queue.length ∧ 10 ≤ State.reset.queue.length :=
  by decide +kernel
theorem test_witness_ForeignReceiverIdIsBusy :
    (receiveByte (device [] [13] [] [] [])).1 = some 13 ∧ (13 : Byte) ≠ (device [] [13] [] [] []).deviceId ∧
      (13 : Byte) ≠ 0 ∧ (device [] [13] [] [] []).router = false :=
  by decide +kernel
theorem test_witness_IllegalLengthIsFail :
    Delivers (device [] [12, 4] [] [] []) [12, 4] [none] ∧ (12 : Byte) = (device [] [12, 4] [] [] []).deviceId ∧
      (4 : Byte).toNat ≤ 4 ∧ Delivers (device [] [0, 50] [] [] []) [0, 50] [none] ∧
      (device [] [0, 50] [] [] []).packetMaxLength ≤ (50 : Byte).toNat :=
  by decide +kernel
theorem test_witness_ForeignHeaderOrBusIdIsBusy :
    let s := device [] [12, 5, 5] [] [] []
    let shared := { device [] [12, 9, 1, 1, 2, 3, 5] [] [] [] with shared := true, busId := ⟨1, 2, 3, 4⟩ }
    (Delivers s [12, 5, 5] [none] ∧ 12 = s.deviceId ∧ s.router = false ∧ 5 ≤ (5 : Byte).toNat ∧
        (5 : Byte).toNat < s.packetMaxLength ∧ modeBit 5 ≠ s.shared) ∧
      (Delivers shared [12, 9, 1, 1, 2, 3, 5] [none] ∧ 12 = shared.deviceId ∧ shared.router = false ∧ 5 ≤ (9 : Byte).toNat ∧
        (9 : Byte).toNat < shared.packetMaxLength ∧ 3 < 4 ∧ 3 + 3 < (9 : Byte).toNat ∧ shared.shared = true ∧ modeBit 1 = true ∧
        [1, 2, 3, 5] = shared.busId.bytes.take 3 ++ [5] ∧ shared.busId.bytes[3]? ≠ some 5) :=
  by decide +kernel
theorem test_witness_FailedReadIsFail :
    (receive1 (device [] [] [] [] [])).2.trace = (device [] [] [] [] []).trace ++ [.receiveByte none] ∧
      Entry.receiveByte none ∈ [Entry.receiveByte none] :=
  by decide +kernel
theorem test_witness_MetadataIsWrittenOnAcceptOnly :
    (receive1 (device [] frameS1 [] [] [])).1 = .ack ∧ (receive1 (device [] [13] [] [] [])).1 ≠ .ack :=
  by decide +kernel
theorem test_witness_SimplexReceiverIsSilent :
    { device [] frameS1 [] [] [] with commMode := .simplex }.commMode = .simplex :=
  by decide +kernel
theorem test_witness_EncodedFrameIsAccepted :
    Delivers (device [] frameS1 [] [] []) (encodeFrame 12 4 BusId.zero BusId.zero 0 [0x40]) [none] ∧
      PassesFilters (device [] frameS1 [] [] []) 12 4 BusId.zero ∧ 5 ≤ overhead 4 + [(0x40 : Byte)].length + 1 ∧
      overhead 4 + [(0x40 : Byte)].length + 1 < (device [] frameS1 [] [] []).packetMaxLength ∧
      (device [] frameS1 [] [] []).packetMaxLength ≤ 255 ∧ ResponseDue (device [] frameS1 [] [] []) 12 4 BusId.zero :=
  by decide +kernel
theorem test_witness_CorruptFrameIsRejected :
    let s := device [] [12, 5, 4, 0x40, 0x5B] [] [] []
    [0x40] = framePrefix 4 BusId.zero BusId.zero 0 ++ [0x40] ∧ Delivers s (frameBody 12 4 [0x40] ++ [0x5B]) [none] ∧
      PassesFilters s 12 4 BusId.zero ∧ 0x5B ≠ crc8 (frameBody 12 4 [0x40]) ∧ 5 ≤ [(0x40 : Byte)].length + 4 ∧
      [(0x40 : Byte)].length + 4 < s.packetMaxLength ∧ s.packetMaxLength ≤ 255 :=
  by decide +kernel
theorem test_witness_CorruptFrameIsRejected_short :
    let s := { device [] [12, 5, 7, 9, 1] [] [] [] with router := true }
    let shared := { device [] [12, 7, 3, 1, 2, 3, 4] [] [] [] with shared := true, busId := ⟨1, 2, 3, 4⟩ }
    (Delivers s [12, 5, 7, 9, 1] [none] ∧ (5 : Byte).toNat = [(9 : Byte), 1].length + 3 ∧ 5 < s.packetMaxLength ∧
        (5 : Byte).toNat < overhead 7 + 1 ∧ s.router = true) ∧
      (Delivers shared [12, 7, 3, 1, 2, 3, 4] [none] ∧ (7 : Byte).toNat < overhead 3 + 1 ∧ modeBit 3 = shared.shared ∧
        [(1 : Byte), 2, 3, 4].take 4 = shared.busId.bytes.take 4 ∧ 12 = shared.deviceId) :=
  by decide +kernel
theorem test_witness_ReceiveForLoop :
    ((receivingFor frameS1 []).running = .receiveFor 0 1000 ∧ (receive1 (receivingFor frameS1 [])).1 = .ack) ∧
      ((receivingFor [] [1001]).running = .receiveFor 0 1000 ∧ (receive1 (receivingFor [] [1001])).1 ≠ .ack ∧
        (1000 : Word).toNat < ((now (receive1 (receivingFor [] [1001])).2).1 - 0).toNat) ∧
      ((receivingFor [] [1000]).running = .receiveFor 0 1000 ∧ (receive1 (receivingFor [] [1000])).1 ≠ .ack ∧
        ((now (receive1 (receivingFor [] [1000])).2).1 - 0).toNat ≤ (1000 : Word).toNat) :=
  by decide +kernel
theorem test_witness_ReceiveForLoop_command :
    let s := device [] [] [] [7, 1001] []
    (now s).1 = 7 ∧ (receive1 (now s).2).1 ≠ .ack ∧
      (1000 : Word).toNat < ((now (receive1 (now s).2).2).1 - (now s).1).toNat :=
  by decide +kernel
theorem test_witness_BeginSeedsDrawsAndSleeps :
    (device [] [] [] [] [250]).env.drawIn = 250 :: [] ∧ 250 < 1000 :=
  by decide +kernel
theorem test_witness_SettersWriteTheirRegister :
    (0 : Byte) = (if false then 1 else 0) ∧ (1 : Byte) = (if true then 1 else 0) :=
  by decide +kernel
theorem test_witness_ReplyEnqueuesToTheLastSender :
    let s := { State.reset with lpi := ⟨12, 6, BusId.zero, BusId.zero, 9⟩, lpiValid := true }
    let full := { s with queue := [packet 1 0 0, packet 2 0 0] }
    s.lpiValid = true ∧ s.lpi.senderId ≠ 0 ∧ 4 = headerOfBits s.shared s.senderInfoEn s.acknowledge ∧
      (overhead 4 + (List.replicate 45 (1 : Byte)).length + 1 < s.packetMaxLength ∧ LowestFree s 0) ∧
      s.packetMaxLength ≤ overhead 4 + (List.replicate 46 (1 : Byte)).length + 1 ∧
      (full.lpiValid = true ∧ full.lpi.senderId ≠ 0 ∧ ∀ p ∈ full.queue, p.state ≠ .free) :=
  by decide +kernel
theorem test_witness_ReplyWithoutASender :
    { State.reset with lpiValid := true }.lpiValid = true ∧ { State.reset with lpiValid := true }.lpi.senderId = 0 ∧
      State.reset.lpiValid = false :=
  by decide +kernel
theorem test_witness_AcquireIdProbesIdOne :
    let s := device [] [] [] [1, 4999999, 1] []
    let late := device [] [] [] [1, 5000000] []
    let short := { s with packetMaxLength := 6, shared := true }
    let full := { s with queue := [packet 1 0 0, packet 2 0 0] }
    (4 = headerOfBits s.shared s.senderInfoEn s.acknowledge ∧ ((now (now s).2).1 - (now s).1).toNat < 5000000 ∧
        overhead 4 + 2 < s.packetMaxLength ∧ LowestFree s 0) ∧
      5000000 ≤ ((now (now late).2).1 - (now late).1).toNat ∧
      (((now (now short).2).1 - (now short).1).toNat < 5000000 ∧ 5 = headerOfBits short.shared short.senderInfoEn short.acknowledge ∧
        short.packetMaxLength ≤ overhead 5 + 2) ∧
      (((now (now full).2).1 - (now full).1).toNat < 5000000 ∧ overhead 4 + 2 < full.packetMaxLength ∧
        ∀ p ∈ full.queue, p.state ≠ .free) :=
  by decide +kernel
theorem test_witness_AcquireIdTurns :
    let freed := acquiring (.acquireProbe 0 1 1) 7 (packet 1 0 0) [1]
    let inUse := acquiring (.acquireProbe 0 1 1) 255 (packet 1 0 0) [1]
    let waiting := acquiring (.acquireProbe 0 1 0) 255 (packet 63 0 0) [4999999]
    (freed.running = .acquireProbe 0 1 1 ∧ (slotAt freed 1).state = .free ∧ freed.deviceId ≠ 255) ∧
      (inUse.running = .acquireProbe 0 1 1 ∧ (slotAt inUse 1).state = .free ∧ inUse.deviceId = 255) ∧
      (waiting.running = .acquireProbe 0 1 0 ∧ (slotAt waiting 0).state ≠ .free ∧
        ((now waiting).1 - 0).toNat < 5000000) :=
  by decide +kernel
theorem test_witness_AcquireIdTurns_over :
    let adopted := acquiring (.acquireProbe 0 1 0) 7 (packet 63 0 0) [5000000]
    let unassigned := acquiring (.acquireProbe 0 1 0) 255 (packet 63 0 0) [5000000]
    (adopted.running = .acquireProbe 0 1 0 ∧ (slotAt adopted 0).state ≠ .free ∧ adopted.deviceId ≠ 255 ∧
        5000000 ≤ ((now adopted).1 - 0).toNat) ∧
      (unassigned.running = .acquireProbe 0 1 0 ∧ (slotAt unassigned 0).state ≠ .free ∧ unassigned.deviceId = 255 ∧
        5000000 ≤ ((now unassigned).1 - 0).toNat) :=
  by decide +kernel
theorem test_witness_AcquireScanProbesTheCandidate :
    let s := acquiring (.acquireScan 0 254) 255 (packet 1 0 0) [4999999]
    let short := { s with packetMaxLength := 6, shared := true }
    let full := { s with queue := [packet 1 0 0, packet 2 0 0] }
    (s.running = .acquireScan 0 254 ∧ 254 ≤ 254 ∧ ((now s).1 - 0).toNat < 5000000 ∧
        4 = headerOfBits s.shared s.senderInfoEn s.acknowledge ∧ overhead 4 + 2 < s.packetMaxLength ∧ LowestFree s 1) ∧
      (short.running = .acquireScan 0 254 ∧ ((now short).1 - 0).toNat < 5000000 ∧
        5 = headerOfBits short.shared short.senderInfoEn short.acknowledge ∧ short.packetMaxLength ≤ overhead 5 + 2) ∧
      (full.running = .acquireScan 0 254 ∧ ((now full).1 - 0).toNat < 5000000 ∧ overhead 4 + 2 < full.packetMaxLength ∧
        ∀ p ∈ full.queue, p.state ≠ .free) :=
  by decide +kernel
theorem test_witness_AcquireIdTurns_scan :
    (acquiring (.acquireScan 0 255) 255 (packet 63 0 0) []).running = .acquireScan 0 255 ∧ 254 < 255 ∧
      (acquiring (.acquireScan 0 254) 255 (packet 63 0 0) [5000000]).running = .acquireScan 0 254 ∧ 254 ≤ 254 ∧
      5000000 ≤ ((now (acquiring (.acquireScan 0 254) 255 (packet 63 0 0) [5000000])).1 - 0).toNat :=
  by decide +kernel
theorem test_witness_SentFrameRowPutsItsBytesOnTheWire :
    let s := sending 6 (packet 1 0 0)
    Instr.wellFormed 10 (.frameLocal .sent 12 1 [0x40] 0x5A) = true ∧
      encode (.frameLocal .sent 12 1 [0x40] 0x5A) = ⟨.frame .sent, 12 :: [5, 4, 0x40, 0x5A]⟩ ∧
      { s with commMode := .simplex }.commMode = .simplex ∧ s.commMode = .halfDuplex ∧ (canStart s).1 = true ∧
      (canStart { s with env := { s.env with senseIn := [false] } }).1 = false ∧ { s with acknowledge := false }.acknowledge = false ∧
      s.acknowledge = true ∧ (12 : Byte) ≠ 0 :=
  by decide +kernel
theorem test_witness_SentFrameRowPutsItsBytesOnTheWire_slot :
    let s := sending 6 { packet 0x40 0 0 with destination := 12 }
    (slotAt s 0).length.toNat = (slotAt s 0).content.length ∧
      frameBytes (slotAt s 0).destination ((slotAt s 0).length + 4) (slotAt s 0).header (slotAt s 0).content =
        12 :: [5, 4, 0x40, 0x5A] :=
  by decide +kernel
theorem test_witness_ReceivedFrameRowIsAPassOverItsBytes :
    encode (.frameLocal .received 12 1 [0x40] 0x5A) = ⟨.frame .received, frameS1⟩ ∧
      Delivers (device [] frameS1 [] [] []) frameS1 [none] :=
  by decide +kernel
theorem test_witness_ReceivedFrameRowsAreAccepted :
    (4 : Byte) = 1#6 ++ 0#2 ∧ (5 : Byte) = 1#6 ++ 1#2 ∧ (2 : Byte) = 0#6 ++ 2#2 ∧ (3 : Byte) = 0#6 ++ 3#2 ∧
      PassesFilters (device [] [] [] [] []) 12 4 BusId.zero ∧
      PassesFilters { device [] [] [] [] [] with shared := true, busId := ⟨1, 2, 3, 4⟩ } 12 5 ⟨1, 2, 3, 4⟩ ∧
      5 ≤ overhead 4 + 1 + 1 :=
  by decide +kernel
theorem test_witness_ReceivedFrameRowsAreAccepted_others :
    PassesFilters (device [] [] [] [] []) 0 2 BusId.zero ∧
      PassesFilters { device [] [] [] [] [] with router := true } 99 3 BusId.zero ∧
      overhead 3 + 36 + 1 < (device [] [] [] [] []).packetMaxLength ∧ (device [] [] [] [] []).packetMaxLength ≤ 255 :=
  by decide +kernel
theorem test_witness_RecordRowsPutTheRecordOnItsStream :
    (9 : Byte).toNat < State.reset.queue.length :=
  by decide +kernel
theorem test_witness_InvariantHoldsAtReset :
    Config.Params.legal {} ∧ Config.Params.legal { maxPackets := 255, packetMaxLength := 6 } ∧
      Config.Params.legal { maxPackets := 1, packetMaxLength := 255 } :=
  by decide +kernel
theorem test_witness_EveryStepKeepsTheInvariant :
    (placeCommand [2] (sending 256 (packet 63 0 125))).inv ∧
      isNext (step (placeCommand [2] (sending 256 (packet 63 0 125)))) = true :=
  by decide +kernel
theorem test_witness_EveryStepExtendsTheTrace :
    isNext (step (receivingFor [] [5])) = true :=
  by decide +kernel
theorem test_witness_OneResponsePerCommand :
    (receivingFor [] [5]).running ≠ .idle ∧ isNext (step (receivingFor [] [5])) = true ∧
      (after (step (receivingFor [] [5]))).running ≠ .idle ∧ (after (step (receivingFor [] [1001]))).running = .idle ∧
      (placeCommand [9] State.reset).inbox = [9] :: [] :=
  by decide +kernel
theorem test_witness_RegistersAreWrittenOnlyByTheirCommands :
    (after (exec .update (sending 256 (packet 63 0 125)))).deviceId ≠ (sending 256 (packet 63 0 125)).deviceId ∧
      (after (exec (.setBusId ⟨1, 2, 3, 4⟩) State.reset)).busId ≠ State.reset.busId ∧
      (after (exec (.setMode 150) State.reset)).commMode ≠ State.reset.commMode ∧
      (after (exec (.setAck 0) State.reset)).acknowledge ≠ State.reset.acknowledge ∧
      (after (exec (.setSenderInfo 1) State.reset)).senderInfoEn ≠ State.reset.senderInfoEn ∧
      (after (exec (.setShared 1) State.reset)).shared ≠ State.reset.shared ∧
      (after (exec (.setRouter 1) State.reset)).router ≠ State.reset.router :=
  by decide +kernel
theorem test_witness_RegistersAreWrittenOnlyByTheirCommands_others :
    (after (exec (.setAutoDelete 0) State.reset)).autoDelete ≠ State.reset.autoDelete ∧
      (after (exec (.setPins 1 2) State.reset)).inputPin ≠ State.reset.inputPin ∧
      (after (exec (.send 1 BusId.zero [1]) (device [] [] [] [1] []))).queue ≠ (device [] [] [] [1] []).queue ∧
      (after (exec .receive (device [] frameS1 [] [] []))).lpi ≠ (device [] frameS1 [] [] []).lpi :=
  by decide +kernel
theorem test_witness_WellFormedInstructionsRun :
    Instr.wellFormed State.reset.queue.length (.setMode 151) = true ∧
      ∀ payload, Instr.setMode 151 = .reply payload → State.reset.lpiValid = true :=
  ⟨by decide, fun _ h => nomatch h⟩
theorem test_witness_OnlyTheListedSituationsAreRefused :
    refusal (step (placeCommand [0] State.reset)) = some (.invalidPacket (.reservedOpcode 0)) ∧
      refusal (step (placeCommand [0x12, 2] State.reset)) = some .reservedOperand ∧
      refusal (step (placeCommand [0x06, 0] State.reset)) = some .replyBeforeAccept :=
  by decide +kernel
theorem test_witness_PinsAreReadByNothing :
    (∀ c d, Instr.update ≠ .setPins c d) ∧ isNext (exec .update (sending 6 (packet 1 0 0))) = true ∧
      decoded .command [9] = some .getId ∧ isNext (step (placeCommand [9] State.reset)) = true ∧
      (receivingFor [] [5]).running ≠ .idle ∧ isNext (step (receivingFor [] [5])) = true :=
  ⟨fun _ _ h => (nomatch h), by decide +kernel⟩

end Sys2Proof.Tests
end

section
/-! Command packets: the decoder inverted, and the step that takes a packet off the command stream (00_scope.md R11). -/

namespace Sys2Proof

/-! ### The operand readers: what they accept is what the encoder writes -/

/-- Bits above an appended lowest byte are bits of the upper part, counted from its own bit 0. -/
theorem extractLsb'_append_byte {w : Nat} (hi : BitVec w) (b : Byte) (start len : Nat) :
    (hi ++ b).extractLsb' (start + 8) len = hi.extractLsb' start len := by
  simp [BitVec.extractLsb'_append_eq_of_le]

/-- The bytes of a 32-bit number are those it was made of (20_memory.md R73). -/
@[simp] theorem word32Bytes_word32 (b0 b1 b2 b3 : Byte) : word32Bytes (word32 b0 b1 b2 b3) = [b0, b1, b2, b3] := by
  have h0 : (word32 b0 b1 b2 b3).extractLsb' 0 8 = b0 := BitVec.extractLsb'_append_eq_right
  have h1 : (word32 b0 b1 b2 b3).extractLsb' 8 8 = b1 :=
    (extractLsb'_append_byte (b3 ++ b2 ++ b1) b0 0 8).trans BitVec.extractLsb'_append_eq_right
  have h2 : (word32 b0 b1 b2 b3).extractLsb' 16 8 = b2 :=
    (extractLsb'_append_byte (b3 ++ b2 ++ b1) b0 8 8).trans <|
      (extractLsb'_append_byte (b3 ++ b2) b1 0 8).trans BitVec.extractLsb'_append_eq_right
  have h3 : (word32 b0 b1 b2 b3).extractLsb' 24 8 = b3 :=
    (extractLsb'_append_byte (b3 ++ b2 ++ b1) b0 16 8).trans <|
      (extractLsb'_append_byte (b3 ++ b2) b1 8 8).trans BitVec.extractLsb'_append_eq_left
  simp only [word32Bytes, h0, h1, h2, h3]

/-- The `len` byte that agrees with its payload is the one the encoder writes (R114, R115). -/
theorem lenPayload_of_length_eq {len : Byte} {payload : List Byte} (h : payload.length = len.toNat) :
    lenPayload payload = len :: payload := by
  simp [lenPayload, h]

theorem encode_of_operandsNone {op : Byte} {args : List Byte} {i j : Instr} (hj : encode j = commandPacket [op])
    (h : operandsNone j args = .ok i) : encode i = commandPacket (op :: args) := by
  unfold operandsNone at h
  split at h
  · cases h
    exact hj
  · cases h

theorem encode_of_operandsByte {op : Byte} {args : List Byte} {i : Instr} {f : Byte → Instr}
    (hf : ∀ a, encode (f a) = commandPacket [op, a]) (h : operandsByte f args = .ok i) :
    encode i = commandPacket (op :: args) := by
  unfold operandsByte at h
  split at h
  · cases h
    exact hf _
  · cases h

theorem encode_of_operandsTwoBytes {op : Byte} {args : List Byte} {i : Instr} {f : Byte → Byte → Instr}
    (hf : ∀ a b, encode (f a b) = commandPacket [op, a, b]) (h : operandsTwoBytes f args = .ok i) :
    encode i = commandPacket (op :: args) := by
  unfold operandsTwoBytes at h
  split at h
  · cases h
    exact hf _ _
  · cases h

theorem encode_of_operandsFourBytes {op : Byte} {args : List Byte} {i : Instr} {f : Byte → Byte → Byte → Byte → Instr}
    (hf : ∀ a b c d, encode (f a b c d) = commandPacket [op, a, b, c, d]) (h : operandsFourBytes f args = .ok i) :
    encode i = commandPacket (op :: args) := by
  unfold operandsFourBytes at h
  split at h
  · cases h
    exact hf _ _ _ _
  · cases h

theorem encode_of_operandsEnqueue {args : List Byte} {i : Instr} (h : operandsEnqueue args = .ok i) :
    encode i = commandPacket (0x05 :: args) := by
  unfold operandsEnqueue at h
  split at h
  · split at h
    next hlen =>
      cases h
      simp [encode, enqueuePacket, BusId.bytes, lenPayload_of_length_eq hlen]
    next => cases h
  · cases h

theorem encode_of_operandsReply {args : List Byte} {i : Instr} (h : operandsReply args = .ok i) :
    encode i = commandPacket (0x06 :: args) := by
  unfold operandsReply at h
  split at h
  · split at h
    next hlen =>
      cases h
      simp [encode, lenPayload_of_length_eq hlen]
    next => cases h
  · cases h

/-! ### The opcode table (R112 to R117) -/

/-- A command packet that decodes is the encoding of what it decodes to; so it is a command, never a frame, symbol or
record (R127). One case per opcode, in the order of the table. -/
theorem encode_of_decodeCommand {bytes : List Byte} {i : Instr} (h : decodeCommand bytes = .ok i) :
    encode i = commandPacket bytes := by
  cases bytes with
  | nil => cases h
  | cons op args =>
    have hop : op = BitVec.ofNat 8 op.toNat := by simp
    simp only [decodeCommand] at h
    generalize op.toNat = n at h hop
    subst hop
    split at h
    · exact encode_of_operandsNone rfl h
    · exact encode_of_operandsNone rfl h
    · exact encode_of_operandsNone rfl h
    · exact encode_of_operandsFourBytes (fun _ _ _ _ => by simp [encode]) h
    · exact encode_of_operandsEnqueue h
    · exact encode_of_operandsReply h
    · exact encode_of_operandsByte (fun _ => rfl) h
    · exact encode_of_operandsNone rfl h
    · exact encode_of_operandsNone rfl h
    · exact encode_of_operandsByte (fun _ => rfl) h
    · exact encode_of_operandsFourBytes (fun _ _ _ _ => rfl) h
    · exact encode_of_operandsByte (fun _ => rfl) h
    · exact encode_of_operandsByte (fun _ => rfl) h
    · exact encode_of_operandsByte (fun _ => rfl) h
    · exact encode_of_operandsByte (fun _ => rfl) h
    · exact encode_of_operandsByte (fun _ => rfl) h
    · exact encode_of_operandsByte (fun _ => rfl) h
    · exact encode_of_operandsTwoBytes (fun _ _ => rfl) h
    · cases h

end Sys2Proof

namespace Sys2Proof.Machine

/-! ### Fetch and step (20_memory.md R65) -/

theorem fetch_of_inbox_cons {s : State} {bytes : List Byte} {rest : List (List Byte)} (h : s.inbox = bytes :: rest) :
    fetch s = some (bytes, { s with inbox := rest }) := by
  simp [fetch, h]

/-- Between commands, a step on a packet that decodes is its instruction on the state without the packet. -/
theorem step_of_decodeCommand {s : State} {bytes : List Byte} {rest : List (List Byte)} {i : Instr}
    (hidle : s.running = .idle) (hinbox : s.inbox = bytes :: rest) (hdec : decodeCommand bytes = .ok i) :
    step s = exec i { s with inbox := rest } := by
  simp [step, hidle, fetch_of_inbox_cons hinbox, hdec]

/-- Settles O8: the step runs what the packet decodes to, and the decoder's inversion shows that this is a command. -/
theorem stepRunsTheDecodedInstruction : Obligations.StepRunsTheDecodedInstruction := by
  intro s bytes rest i hidle hinbox hdec
  exact ⟨step_of_decodeCommand hidle hinbox hdec, encode_of_decodeCommand hdec⟩

end Sys2Proof.Machine
end

section
/-! The meanings and the step inverted: what a next state is, where there is one. -/

namespace Sys2Proof.Machine

theorem setFlag_next {v : Byte} {write : Bool → State} {t : State} (h : setFlag v write = .next t) :
    ∃ b, t = respond .void (write b) := by
  rcases setFlag_cases v write with ⟨_, he⟩ | ⟨_, he⟩ | ⟨_, _, he⟩ <;> rw [he] at h <;> cases h
  · exact ⟨false, rfl⟩
  · exact ⟨true, rfl⟩

theorem execSetMode_next {m : Byte} {s t : State} (h : execSetMode m s = .next t) :
    ∃ c, t = respond .void { s with commMode := c } := by
  unfold execSetMode at h
  split at h <;> cases h
  exact ⟨_, rfl⟩

/-- A header that an enqueue was given has bits 7..3 zero (30_encoding.md R122). -/
theorem enqueueOperands_next {s t : State} {dst : Byte} {rbus : BusId} {timing : Word} {hsel header : Byte}
    {payload : List Byte} (h : enqueueOperands dst rbus timing hsel header payload s = .next t) :
    ∃ explicit, (∀ x, explicit = some x → reservedBitsClear x = true) ∧
      t = enqueueCommand dst rbus timing explicit payload s := by
  rcases enqueueOperands_cases dst rbus timing hsel header payload s with ⟨explicit, _, hexp, he⟩ | ⟨_, _, he⟩ | ⟨_, _, he⟩ <;>
    rw [he] at h <;> cases h
  refine ⟨explicit, fun x hx => ?_, rfl⟩
  rcases hexp with rfl | ⟨hres, rfl⟩ <;> cases hx
  exact hres

theorem execReply_next {payload : List Byte} {s t : State} (h : execReply payload s = .next t) :
    t = respond .noop s ∨ t = enqueueCommand s.lpi.senderId s.lpi.senderBusId 0 none payload s := by
  unfold execReply at h
  split at h
  · split at h <;> cases h
    · exact .inl rfl
    · exact .inr rfl
  · cases h

theorem execRemove_next {slot : Byte} {s t : State} (h : execRemove slot s = .next t) :
    t = respond .void (removeSlot slot.toNat s) := by
  unfold execRemove at h
  split at h <;> cases h
  rfl

theorem execRespSlot_next {slot : Byte} {s t : State} (h : execRespSlot slot s = .next t) : t = respond (.slot slot) s := by
  unfold execRespSlot at h
  split at h <;> cases h
  rfl

theorem execErrevt_next {code : Byte} {data : Half} {s t : State} (h : execErrevt code data s = .next t) :
    ∃ kind, t = raiseError kind data s := by
  unfold execErrevt at h
  split at h <;> cases h
  exact ⟨_, rfl⟩

@[simp] theorem wireSymbol_own (dir : Direction) (sym : Byte) (s : State) : (wireSymbol dir sym s).own = s.own := by
  cases dir with
  | sent => exact sendResponse_own sym s
  | received => exact awaitResponse_own (deliverSymbol sym s)

/-- A frame sent writes no state of the block; a frame received leaves it as a pass over the frame does (log 13). -/
theorem wireFrame_next {s t : State} {dir : Direction} {dst h : Byte} {content : List Byte} {crc : Byte}
    (hf : wireFrame dir dst h content crc s = .next t) :
    t.own = s.own ∨
      dir = .received ∧ t.own = (receive1 (deliverFrame (frameBody dst h content ++ [crc]) s)).2.own := by
  rcases wireFrame_cases dir dst h content crc s with ⟨_, _, he⟩ | ⟨_, _, he⟩ | ⟨hdir, he⟩ <;> rw [he] at hf <;> cases hf
  · exact .inl (transmit_own ..)
  · exact .inr ⟨hdir, rfl⟩

/-- Everything a step can do (00_scope.md R11, log 1, log 2): a turn of what runs, nothing, an instruction, or a refusal. -/
theorem step_cases (s : State) :
    (s.running ≠ .idle ∧ step s = .next (resume s)) ∨
      (s.running = .idle ∧ s.inbox = [] ∧ step s = .next s) ∨
      (∃ bytes rest i, s.running = .idle ∧ s.inbox = bytes :: rest ∧ decodeCommand bytes = .ok i ∧
        step s = exec i { s with inbox := rest }) ∨
      (∃ bytes rest why, s.running = .idle ∧ s.inbox = bytes :: rest ∧ decodeCommand bytes = .error why ∧
        step s = .refused (.invalidPacket why)) := by
  by_cases hidle : s.running = .idle
  · cases hinbox : s.inbox with
    | nil => exact .inr (.inl ⟨hidle, rfl, by simp [step, hidle, fetch, hinbox]⟩)
    | cons bytes rest =>
      cases hdec : decodeCommand bytes with
      | ok i =>
        exact .inr (.inr (.inl ⟨bytes, rest, i, hidle, rfl, hdec, step_of_decodeCommand hidle hinbox hdec⟩))
      | error why =>
        refine .inr (.inr (.inr ⟨bytes, rest, why, hidle, rfl, hdec, ?_⟩))
        simp [step, hidle, fetch_of_inbox_cons hinbox, hdec]
  · exact .inl ⟨hidle, by simp [step, hidle]⟩

end Sys2Proof.Machine
end

section
/-! The invariant of the block between steps (10_state.md R42): what each operation on the state keeps of it, from the slots and
the receive buffer up to the commands, the turns and the step. -/

namespace Sys2Proof.Machine

/-! ### What the invariant reads -/

/-- The invariant is about the block's own state: what only adds to the trace or touches the outside keeps it. -/
theorem inv_of_own {s t : State} (h : t.own = s.own) (hs : s.inv) : t.inv := by
  have ht : t.own.inv ↔ s.own.inv := by rw [h]
  exact ht.2 hs

/-- What runs next is in range, and nothing else is written. -/
theorem inv_running {s : State} {r : Running} (hs : s.inv) (hr : r.inRange s.queue.length = true) :
    State.inv { s with running := r } := by
  obtain ⟨hparams, hslots, hrx, _⟩ := hs
  exact ⟨hparams, hslots, hrx, hr⟩

/-! ### Slots (R42) -/

theorem empty_ok (n : Nat) : Slot.ok n Slot.empty := by
  simp [Slot.ok, Slot.empty, reservedBitsClear]

/-- Every slot of a state with the invariant is well formed; an index past the queue reads as the free slot. -/
theorem slotAt_ok {s : State} (hs : s.inv) (i : Nat) : Slot.ok s.packetMaxLength (slotAt s i) := by
  obtain ⟨_, hslots, _⟩ := hs
  by_cases hi : i < s.queue.length
  · exact hslots _ (slotAt_mem hi)
  · have hempty : slotAt s i = Slot.empty := by simp [slotAt, List.getD_eq_getElem?_getD, hi]
    exact hempty ▸ empty_ok _

/-- The part of a pending slot's well-formedness that the scheduler never writes: its content is as long as it says, holds the
address fields of its header and fits a frame, and the header can be sent (R37, R38, R42). -/
def HoldsFrame (n : Nat) (p : Slot) : Prop :=
  p.content.length = p.length.toNat ∧ (prefixLen p.header ≤ p.length.toNat ∧ p.length.toNat + 4 < n) ∧
    reservedBitsClear p.header = true

theorem holdsFrame_of_ok {n : Nat} {p : Slot} (hp : Slot.ok n p) (hpend : p.state ≠ .free) : HoldsFrame n p := by
  obtain ⟨_, _, hlen, hfit, hres, _⟩ := hp
  exact ⟨hlen, hfit hpend, hres⟩

/-- A pending slot is well formed if it holds a frame and, where it repeats, its attempts are in range. -/
theorem ok_of_holdsFrame {n : Nat} {p : Slot} (hp : HoldsFrame n p) (hpend : p.state ≠ .free) (hack : p.state ≠ .ack)
    (hatt : p.timing ≠ 0 → p.attempts.toNat ≤ Config.maxAttempts) : Slot.ok n p := by
  obtain ⟨hlen, hfit, hres⟩ := hp
  exact ⟨fun hfree => absurd hfree hpend, hack, hlen, fun _ => hfit, hres, hatt⟩

/-- Writing a well-formed slot, and anything to `DEVICE_ID`, keeps the invariant. -/
theorem inv_of_queueWrite {s t : State} {i : Nat} {p : Slot} (hs : s.inv) (hw : QueueWrite s t)
    (hq : t.queue = s.queue.set i p) (hp : Slot.ok s.packetMaxLength p) : t.inv := by
  have hlen : t.queue.length = s.queue.length := by simp [hq]
  have hmax : t.packetMaxLength = s.packetMaxLength := show t.own.packetMaxLength = _ by rw [hw]; rfl
  have hrx : t.rxbuf = s.rxbuf := show t.own.rxbuf = _ by rw [hw]; rfl
  have hrun : t.running = s.running := show t.own.running = _ by rw [hw]; rfl
  obtain ⟨hparams, hslots, hrxok, hrunning⟩ := hs
  refine ⟨by rwa [State.paramsLegal, hlen, hmax], fun q hmem => ?_, by rwa [State.rxbufOk, hrx, hmax], by rwa [hlen, hrun]⟩
  rw [hmax]
  rw [hq] at hmem
  rcases List.mem_or_eq_of_mem_set hmem with hold | rfl
  · exact hslots q hold
  · exact hp

theorem setSlot_inv {s : State} {i : Nat} {p : Slot} (hs : s.inv) (hp : Slot.ok s.packetMaxLength p) : (setSlot i p s).inv :=
  inv_of_queueWrite hs rfl rfl hp

theorem removeSlot_inv {s : State} (hs : s.inv) (i : Nat) : (removeSlot i s).inv := setSlot_inv hs (empty_ok _)

/-! ### Enqueuing (41_queue_scheduler.md R150) -/

/-- The controller's choice of a header has bits 7..3 zero (R151). -/
theorem headerOfBits_reservedBitsClear (mode senderInfo ackRequest : Bool) :
    reservedBitsClear (headerOfBits mode senderInfo ackRequest) = true := by
  revert mode senderInfo ackRequest
  decide

theorem chooseHeader_reservedBitsClear {explicit : Option Byte} (s : State)
    (hexp : ∀ h, explicit = some h → reservedBitsClear h = true) : reservedBitsClear (chooseHeader explicit s) = true := by
  cases explicit with
  | none => exact headerOfBits_reservedBitsClear ..
  | some h => exact hexp h rfl

/-- The slot of a frame that passed the length check of R152 is well formed. -/
theorem pendingSlot_ok {n : Nat} {dst h : Byte} {rbus : BusId} {payload : List Byte} (s : State) (t : Time) (timing : Word)
    (hn : n ≤ 255) (hfit : frameLength h payload < n) (hres : reservedBitsClear h = true) :
    Slot.ok n (pendingSlot dst h (slotContent h rbus payload s) t timing) := by
  have hlen : (slotContent h rbus payload s).length = prefixLen h + payload.length := by simp [slotContent]
  have hbound : prefixLen h + payload.length + 4 < n := by
    have := prefixLen_add h
    unfold frameLength at hfit
    omega
  have hbyte : (BitVec.ofNat 8 (slotContent h rbus payload s).length).toNat = prefixLen h + payload.length := by
    rw [hlen]
    exact Nat.mod_eq_of_lt (by omega)
  refine ⟨fun hfree => (nomatch hfree), fun hack => (nomatch hack), ?_, fun _ => ⟨?_, ?_⟩, hres, fun _ => Nat.zero_le _⟩
  · exact hlen.trans hbyte.symm
  · exact (Nat.le_add_right ..).trans hbyte.ge
  · exact hbyte.symm ▸ hbound

theorem enq_inv {s : State} {explicit : Option Byte} (dst : Byte) (rbus : BusId) (timing : Word) (payload : List Byte)
    (hs : s.inv) (hexp : ∀ h, explicit = some h → reservedBitsClear h = true) :
    (enq dst rbus timing explicit payload s).2.inv := by
  rcases enq_cases dst rbus timing explicit payload s with ⟨_, h⟩ | ⟨_, _, h⟩ | ⟨i, hfit, _, h⟩ <;> rw [h]
  · exact inv_of_own (raiseError_own ..) hs
  · exact inv_of_own (raiseError_own ..) hs
  · have hmax : s.packetMaxLength ≤ 255 := by
      obtain ⟨⟨_, _, _, hmax⟩, _⟩ := hs
      exact hmax
    exact setSlot_inv (inv_of_own (now_own s) hs)
      (pendingSlot_ok s _ _ hmax hfit (chooseHeader_reservedBitsClear s hexp))

/-- The slot that `ENQ` took exists, in the queue it leaves (R153). -/
theorem enq_slot_lt {s : State} {dst : Byte} {rbus : BusId} {timing : Word} {explicit : Option Byte} {payload : List Byte}
    {i : Nat} (hi : (enq dst rbus timing explicit payload s).1 = some i) :
    i < (enq dst rbus timing explicit payload s).2.queue.length := by
  rcases enq_cases dst rbus timing explicit payload s with ⟨_, h⟩ | ⟨_, _, h⟩ | ⟨j, _, hfree, h⟩ <;> rw [h] at hi ⊢
  · cases hi
  · cases hi
  · cases hi
    obtain ⟨hlt, _⟩ := freeSlot_spec hfree
    simpa [setSlot] using hlt

theorem enqueueCommand_inv {s : State} {explicit : Option Byte} (dst : Byte) (rbus : BusId) (timing : Word)
    (payload : List Byte) (hs : s.inv) (hexp : ∀ h, explicit = some h → reservedBitsClear h = true) :
    (enqueueCommand dst rbus timing explicit payload s).inv :=
  inv_of_own (respond_own ..) (enq_inv dst rbus timing payload hs hexp)

theorem enqueueOperands_inv {s t : State} {dst : Byte} {rbus : BusId} {timing : Word} {hsel header : Byte}
    {payload : List Byte} (hs : s.inv) (h : enqueueOperands dst rbus timing hsel header payload s = .next t) : t.inv := by
  obtain ⟨explicit, hexp, rfl⟩ := enqueueOperands_next h
  exact enqueueCommand_inv dst rbus timing payload hs hexp

/-! ### The scheduler (41_queue_scheduler.md R160 to R169) -/

/-- The queue of `t` is that of `s` but for slot `i`, and what stands there is well formed. -/
def LeavesOkSlot (n i : Nat) (s t : State) : Prop := ∃ p, Slot.ok n p ∧ t.queue = s.queue.set i p

/-- What slot `i` held for a moment does not matter. -/
theorem leavesOkSlot_of_setSlot {n i : Nat} {p : Slot} {s t : State} (h : LeavesOkSlot n i (setSlot i p s) t) :
    LeavesOkSlot n i s t := by
  obtain ⟨q, hq, hset⟩ := h
  exact ⟨q, hq, by simpa [setSlot, List.set_set] using hset⟩

theorem leavesOkSlot_refl {n i : Nat} {s : State} (hi : i < s.queue.length) (hp : Slot.ok n (slotAt s i)) :
    LeavesOkSlot n i s s :=
  ⟨slotAt s i, hp, by simp [slotAt, List.getD_eq_getElem?_getD, hi]⟩

theorem handleAck_leavesOkSlot {n i : Nat} {s : State} (hp : HoldsFrame n (slotAt s i)) :
    LeavesOkSlot n i s (handleAck i s) := by
  unfold handleAck
  split
  · exact ⟨_, empty_ok n, rfl⟩
  · refine ⟨_, ?_, rfl⟩
    exact ok_of_holdsFrame hp (fun h => nomatch h) (fun h => nomatch h) fun _ => Nat.zero_le _

theorem afterConnectionLost_leavesOkSlot {n i : Nat} {s : State} (hi : i < s.queue.length) (hp : HoldsFrame n (slotAt s i))
    (hpend : (slotAt s i).state ≠ .free) (hack : (slotAt s i).state ≠ .ack) :
    LeavesOkSlot n i s (afterConnectionLost i s) := by
  unfold afterConnectionLost
  split
  · exact ⟨_, empty_ok n, rfl⟩
  · split
    · refine ⟨_, ?_, rfl⟩
      exact ok_of_holdsFrame hp hpend hack fun _ => Nat.zero_le _
    · next honce => exact leavesOkSlot_refl hi (ok_of_holdsFrame hp hpend hack fun hrepeat => absurd hrepeat honce)

theorem handleExhausted_leavesOkSlot {n i : Nat} {s : State} (hi : i < s.queue.length) (hp : HoldsFrame n (slotAt s i))
    (hpend : (slotAt s i).state ≠ .free) (hack : (slotAt s i).state ≠ .ack) :
    LeavesOkSlot n i s (handleExhausted i s) := by
  unfold handleExhausted
  split
  · exact ⟨_, empty_ok n, rfl⟩
  · exact afterConnectionLost_leavesOkSlot (s := raiseError _ _ s) hi hp hpend hack

/-- The count that is not above `MAX_ATTEMPTS` is in range whatever it was before (R165). -/
theorem handleFail_leavesOkSlot {n i : Nat} {s : State} (hi : i < s.queue.length) (hp : HoldsFrame n (slotAt s i))
    (hpend : (slotAt s i).state ≠ .free) (hack : (slotAt s i).state ≠ .ack) :
    LeavesOkSlot n i s (handleFail i s) := by
  have hslot : slotAt (countAttempt i s) i = { slotAt s i with attempts := (slotAt s i).attempts + 1 } :=
    slotAt_setSlot_same s _ hi
  have hi' : i < (countAttempt i s).queue.length := by simpa [countAttempt, setSlot] using hi
  have hp' : HoldsFrame n (slotAt (countAttempt i s) i) := hslot ▸ hp
  have hpend' : (slotAt (countAttempt i s) i).state ≠ .free := hslot ▸ hpend
  have hack' : (slotAt (countAttempt i s) i).state ≠ .ack := hslot ▸ hack
  apply leavesOkSlot_of_setSlot (p := { slotAt s i with attempts := (slotAt s i).attempts + 1 })
  change LeavesOkSlot n i (countAttempt i s) (handleFail i s)
  unfold handleFail
  dsimp only
  split
  · exact handleExhausted_leavesOkSlot hi' hp' hpend' hack'
  · next hcount => exact leavesOkSlot_refl hi' (ok_of_holdsFrame hp' hpend' hack' fun _ => not_lt.1 hcount)

/-- What an outcome leaves in its slot is well formed: the state `ACK` is gone again, and the count of a repeating slot that
crossed `MAX_ATTEMPTS` starts again (R163 to R168, R172). -/
theorem handleOutcome_leavesOkSlot {n i : Nat} (o : Outcome) {s : State} (hi : i < s.queue.length)
    (hp : Slot.ok n (slotAt s i)) (hpend : (slotAt s i).state ≠ .free) : LeavesOkSlot n i s (handleOutcome i o s) := by
  have hslot : slotAt (storeOutcome i o s) i = { slotAt s i with state := slotStateOfOutcome o } :=
    slotAt_setSlot_same s _ hi
  have hi' : i < (storeOutcome i o s).queue.length := by simpa [storeOutcome, setSlot] using hi
  have hheld : HoldsFrame n (slotAt s i) := holdsFrame_of_ok hp hpend
  have hframe : HoldsFrame n (slotAt (storeOutcome i o s) i) := hslot ▸ hheld
  have hpend' : (slotAt (storeOutcome i o s) i).state ≠ .free := by
    rw [hslot]
    cases o <;> exact fun h => nomatch h
  have hatt : (slotAt (storeOutcome i o s) i).timing ≠ 0 →
      (slotAt (storeOutcome i o s) i).attempts.toNat ≤ Config.maxAttempts := by
    obtain ⟨_, _, _, _, _, hatt⟩ := hp
    exact hslot ▸ hatt
  apply leavesOkSlot_of_setSlot (p := { slotAt s i with state := slotStateOfOutcome o })
  change LeavesOkSlot n i (storeOutcome i o s) (handleOutcome i o s)
  have hack' : o ≠ .ack → (slotAt (storeOutcome i o s) i).state ≠ .ack := by
    rw [hslot]
    cases o <;> simp [slotStateOfOutcome]
  cases o with
  | ack => exact handleAck_leavesOkSlot hframe
  | fail => exact handleFail_leavesOkSlot hi' hframe hpend' (hack' (fun h => nomatch h))
  | busy => exact leavesOkSlot_refl hi' (ok_of_holdsFrame hframe hpend' (hack' (fun h => nomatch h)) hatt)
  | nak => exact leavesOkSlot_refl hi' (ok_of_holdsFrame hframe hpend' (hack' (fun h => nomatch h)) hatt)

/-- Only a slot that holds a packet transmits, so the turn's slot is in the queue. -/
theorem lt_of_slotAt_pending {s : State} {i : Nat} (h : (slotAt s i).state ≠ .free) : i < s.queue.length := by
  by_contra hi
  exact h (by simp [slotAt, List.getD_eq_getElem?_getD, hi, Slot.empty])

theorem tickSlot_inv {s : State} (hs : s.inv) (i : Nat) : (tickSlot i s).inv := by
  rcases tickSlot_cases i s with ⟨_, h⟩ | ⟨_, _, h⟩ | ⟨hpend, _, h⟩ <;> rw [h]
  · exact hs
  · exact inv_of_own (now_own s) hs
  · have hown : (transmitSlot i (now s).2).2.own = s.own := (transmitSlot_own i _).trans (now_own s)
    have hs' := inv_of_own hown hs
    have hslot : slotAt (transmitSlot i (now s).2).2 i = slotAt s i := slotAt_congr (queue_of_own hown) i
    have hpend' := hslot.symm ▸ hpend
    obtain ⟨p, hp, hq⟩ :=
      handleOutcome_leavesOkSlot (transmitSlot i (now s).2).1 (lt_of_slotAt_pending hpend') (slotAt_ok hs' i) hpend'
    exact inv_of_queueWrite hs' (handleOutcome_queueWrite ..) hq hp

theorem tick_inv {s : State} (hs : s.inv) : (tick s).inv := by
  unfold tick
  generalize List.range s.queue.length = l
  induction l generalizing s with
  | nil => exact hs
  | cons i l ih => exact ih (tickSlot_inv hs i)

/-! ### The receive engine (43_receive.md R201) -/

/-- A byte stored inside `0 .. PACKET_MAX_LENGTH − 1` keeps the receive buffer canonical and in range (R208). -/
theorem storeRx_inv {s : State} {i : Nat} (b : Byte) (hs : s.inv) (hi : i < s.packetMaxLength) : (storeRx i b s).inv := by
  obtain ⟨hparams, hslots, ⟨hwf, hbound⟩, hrun⟩ := hs
  exact ⟨hparams, hslots, ⟨write_wf i b hwf, write_bound b hi hbound⟩, hrun⟩

theorem receiveInto_inv {s : State} {i : Nat} (hs : s.inv) (hi : i < s.packetMaxLength) : (receiveInto i s).2.inv := by
  have hread : (receiveByte s).2.inv := inv_of_own (receiveByte_own s) hs
  rcases receiveInto_cases i s with ⟨_, h⟩ | ⟨b, _, h⟩ <;> rw [h]
  · exact hread
  · exact storeRx_inv b hread (by simpa using hi)

@[simp] theorem receiveInto_packetMaxLength (i : Nat) (s : State) :
    (receiveInto i s).2.packetMaxLength = s.packetMaxLength := by
  have h := receiveInto_bufferWrite i s
  exact show (receiveInto i s).2.own.packetMaxLength = _ by rw [h]; rfl

theorem receiveRest_inv {n i : Nat} {h : Byte} {frame : List Byte} {s : State} (hs : s.inv)
    (hi : i + n ≤ s.packetMaxLength) : (receiveRest n i h frame s).2.inv := by
  induction n generalizing i frame s with
  | zero => exact hs
  | succ n ih =>
    have hread : (receiveInto i s).2.inv := receiveInto_inv hs (by omega)
    unfold receiveRest
    dsimp only
    split
    · exact hread
    · split
      · exact hread
      · exact ih hread (by rw [receiveInto_packetMaxLength]; omega)

theorem finishFrame_inv {s : State} (frame : List Byte) (hs : s.inv) : (finishFrame frame s).2.inv := by
  rcases finishFrame_cases frame s with ⟨_, h⟩ | ⟨_, h⟩ <;> rw [h]
  · have hinfo : (storeInfo frame s).inv := hs
    exact inv_of_own (acceptFrame_own frame s) hinfo
  · exact inv_of_own (respondSymbol_own ..) hs

theorem receiveTail_inv {s : State} {dst len h : Byte} (hs : s.inv) (hlen : rejectsLength len s = false) :
    (receiveTail dst len h s).2.inv := by
  have hbound : 4 < len.toNat ∧ len.toNat < s.packetMaxLength := by simpa [rejectsLength] using hlen
  have hrest : (receiveRest (len.toNat - 3) 3 h [dst, len, h] s).2.inv := receiveRest_inv hs (by omega)
  unfold receiveTail
  dsimp only
  split
  · exact hrest
  · exact finishFrame_inv _ hrest

/-- Every byte that a pass stores lies below the length byte it accepted, hence below `PACKET_MAX_LENGTH` (R204, R208). -/
theorem receive1_inv {s : State} (hs : s.inv) : (receive1 s).2.inv := by
  have hmax : 6 ≤ s.packetMaxLength := by
    obtain ⟨⟨_, _, hmax, _⟩, _⟩ := hs
    exact hmax
  have h0 : (receiveInto 0 s).2.inv := receiveInto_inv hs (by omega)
  have h1 : (receiveInto 1 (receiveInto 0 s).2).2.inv := receiveInto_inv h0 (by rw [receiveInto_packetMaxLength]; omega)
  unfold receive1 receiveLength receiveHeader
  dsimp only
  split
  · exact h0
  split
  · exact h0
  split
  · exact h1
  split
  · exact h1
  next len _ hlen =>
  have h2 : (receiveInto 2 (receiveInto 1 (receiveInto 0 s).2).2).2.inv :=
    receiveInto_inv h1 (by simp only [receiveInto_packetMaxLength]; omega)
  split
  · exact h2
  split
  · exact h2
  · refine receiveTail_inv h2 ?_
    simpa [rejectsLength] using hlen

/-! ### The turns of the two commands that loop (43_receive.md R230, 45_id_acquisition.md R270) -/

theorem endReceiveFor_inv {s : State} (o : Outcome) (hs : s.inv) : (endReceiveFor o s).inv :=
  inv_of_own (respond_own ..) (inv_running hs rfl)

theorem receiveForTurn_inv {s : State} (t0 : Time) (duration : Word) (hs : s.inv) : (receiveForTurn t0 duration s).inv := by
  have hpass : (receive1 s).2.inv := receive1_inv hs
  have hclock : (now (receive1 s).2).2.inv := inv_of_own (now_own _) hpass
  rcases receiveForTurn_cases t0 duration s with ⟨_, h⟩ | ⟨_, h⟩ | ⟨_, h⟩ <;> rw [h]
  · exact endReceiveFor_inv _ hpass
  · exact endReceiveFor_inv _ hclock
  · exact inv_running hclock rfl

theorem endAcquire_inv {s : State} (hs : s.inv) : (endAcquire s).inv :=
  inv_of_own (respond_own ..) (inv_running hs rfl)

theorem failAcquire_inv {s : State} (hs : s.inv) : (failAcquire s).inv :=
  endAcquire_inv (inv_of_own (raiseError_own ..) hs)

theorem enqProbe_inv {s : State} (k : Nat) (hs : s.inv) : (enqProbe k s).2.inv :=
  enq_inv _ _ _ _ hs fun _ h => nomatch h

theorem acquireScanTurn_inv {s : State} (t0 : Time) {k : Nat} (hs : s.inv) (hk : 1 ≤ k) : (acquireScanTurn t0 k s).inv := by
  have hclock : (now s).2.inv := inv_of_own (now_own s) hs
  rcases acquireScanTurn_cases t0 k s with ⟨_, h⟩ | ⟨_, h⟩ | ⟨_, _, h⟩ | ⟨i, hk', hi, h⟩ <;> rw [h]
  · exact failAcquire_inv hs
  · exact failAcquire_inv hclock
  · exact failAcquire_inv (enqProbe_inv k hclock)
  · have hslot : i < (enqProbe k (now s).2).2.queue.length := enq_slot_lt hi
    exact inv_running (enqProbe_inv k hclock) (by simp [Running.inRange, hk, hk', hslot])

theorem acquireNext_inv {s : State} (t0 : Time) {k : Nat} (hs : s.inv) (hk : k ≤ 254) : (acquireNext t0 k s).inv := by
  rcases acquireNext_cases t0 k s with h | h <;> rw [h]
  · exact endAcquire_inv hs
  · exact inv_running hs (by simp [Running.inRange]; omega)

theorem acquireProbeTurn_inv {s : State} (t0 : Time) {k slot : Nat} (hs : s.inv) (hk : 1 ≤ k) (hk' : k ≤ 254)
    (hslot : slot < s.queue.length) : (acquireProbeTurn t0 k slot s).inv := by
  have hclock : (now s).2.inv := inv_of_own (now_own s) hs
  rcases acquireProbeTurn_cases t0 k slot s with h | h | h <;> rw [h]
  · exact acquireNext_inv t0 hs hk'
  · exact acquireNext_inv t0 hclock hk'
  · exact tick_inv (inv_running hclock (by simp [Running.inRange, hk, hk', hslot]))

/-- A further turn of whatever runs keeps the invariant: the candidate and the slot of a scan were in range before it. -/
theorem resume_inv {s : State} (hs : s.inv) : (resume s).inv := by
  have hrun : Running.inRange s.queue.length s.running = true := by
    obtain ⟨_, _, _, hrun⟩ := hs
    exact hrun
  unfold resume
  split
  · exact hs
  · exact receiveForTurn_inv _ _ hs
  · next t0 k heq =>
    obtain ⟨hk, _⟩ : 1 ≤ k ∧ k ≤ 255 := by simpa [heq, Running.inRange] using hrun
    exact acquireScanTurn_inv t0 hs hk
  · next t0 k slot heq =>
    obtain ⟨⟨hk, hk'⟩, hslot⟩ : (1 ≤ k ∧ k ≤ 254) ∧ slot < s.queue.length := by
      simpa [heq, Running.inRange] using hrun
    exact acquireProbeTurn_inv t0 hs hk hk' hslot

/-! ### Instructions -/

/-- A setter keeps the invariant where the write it makes does (44_controller.md section 2). -/
theorem setFlag_inv {v : Byte} {write : Bool → State} {t : State} (h : setFlag v write = .next t) (hw : ∀ b, (write b).inv) :
    t.inv := by
  obtain ⟨b, rfl⟩ := setFlag_next h
  exact inv_of_own (respond_own ..) (hw b)

theorem wireFrame_inv {s t : State} {dir : Direction} {dst h : Byte} {content : List Byte} {crc : Byte} (hs : s.inv)
    (hf : wireFrame dir dst h content crc s = .next t) : t.inv := by
  have hdelivered : (deliverFrame (frameBody dst h content ++ [crc]) s).inv := hs
  rcases wireFrame_next hf with hown | ⟨_, hown⟩
  · exact inv_of_own hown hs
  · exact inv_of_own hown (receive1_inv hdelivered)

/-- Every instruction keeps the invariant: the setters write no register it speaks of, the queue is written by enqueues, removals
and the scheduler only, and the receive buffer by passes of the receive engine only. -/
theorem exec_inv {i : Instr} {s t : State} (hs : s.inv) (h : exec i s = .next t) : t.inv := by
  cases i with
  | beginOp =>
    cases h
    exact inv_of_own (s := s) (by simp) hs
  | update | tick =>
    cases h
    exact inv_of_own (respond_own ..) (tick_inv hs)
  | receive =>
    cases h
    exact inv_of_own (respond_own ..) (receive1_inv hs)
  | receiveFor duration =>
    cases h
    exact receiveForTurn_inv _ _ (inv_of_own (now_own s) hs)
  | acquireId =>
    cases h
    exact acquireScanTurn_inv _ (inv_of_own (now_own s) hs) (le_refl 1)
  | enqueue | sendH | sendRepeatedlyH => exact enqueueOperands_inv hs h
  | send | sendRepeatedly =>
    cases h
    exact enqueueCommand_inv _ _ _ _ hs fun _ h => nomatch h
  | reply payload =>
    rcases execReply_next h with rfl | rfl
    · exact inv_of_own (respond_own ..) hs
    · exact enqueueCommand_inv _ _ _ _ hs fun _ h => nomatch h
  | remove slot =>
    rw [execRemove_next h]
    exact inv_of_own (respond_own ..) (removeSlot_inv hs _)
  | getId | setId | setBusId | setPins =>
    cases h
    exact inv_of_own (respond_own ..) hs
  | setShared | setRouter | setSenderInfo | setAck | setAutoDelete => exact setFlag_inv h fun _ => hs
  | setMode m =>
    obtain ⟨c, rfl⟩ := execSetMode_next h
    exact inv_of_own (respond_own ..) hs
  | frameLocal | frameShared | frameLocalSender | frameSharedSender => exact wireFrame_inv hs h
  | ack | nak =>
    cases h
    exact inv_of_own (wireSymbol_own ..) hs
  | respVoid | respEnqFail | respOutcome | respNoop | respId | rxevt =>
    cases h
    exact inv_of_own (emit_own ..) hs
  | respSlot slot =>
    rw [execRespSlot_next h]
    exact inv_of_own (respond_own ..) hs
  | errevt code data =>
    obtain ⟨kind, rfl⟩ := execErrevt_next h
    exact inv_of_own (raiseError_own ..) hs

/-! ### Reset and step -/

theorem resetWith_inv {p : Config.Params} (hp : p.legal) : (State.resetWith p).inv := by
  refine ⟨?_, fun q hq => ?_, ⟨List.Pairwise.nil, fun _ h => nomatch h⟩, rfl⟩
  · simpa [State.paramsLegal, State.resetWith] using hp
  · exact (List.eq_of_mem_replicate hq) ▸ empty_ok _

/-- Settles O52: every slot is free and the receive buffer empty. -/
theorem invariantHoldsAtReset : Obligations.InvariantHoldsAtReset :=
  ⟨resetWith_inv (by decide), fun _ hp => resetWith_inv hp⟩

/-- Settles O53, by the cases of a step: each instruction and each turn keeps the invariant. -/
theorem everyStepKeepsTheInvariant : Obligations.EveryStepKeepsTheInvariant := by
  intro s t hs h
  rcases step_cases s with ⟨_, he⟩ | ⟨_, _, he⟩ | ⟨bytes, rest, i, _, _, _, he⟩ | ⟨bytes, rest, why, _, _, _, he⟩ <;>
    rw [he] at h
  · cases h
    exact resume_inv hs
  · cases h
    exact hs
  · have htaken : State.inv { s with inbox := rest } := hs
    exact exec_inv htaken h
  · cases h

end Sys2Proof.Machine
end

section
/-! The pins are read by nothing (10_state.md R31, 44_controller.md R249): every operation commutes with giving the block other
pins. -/

namespace Sys2Proof.Machine

/-! ### The same block with other pins -/

/-- The state with other pin handles and everything else as it is. -/
@[simps] def State.withPins (a b : Byte) (s : State) : State := { s with inputPin := a, outputPin := b }

/-- What `f` makes of a next state; a stop stays as it is. -/
def mapNext (f : State → State) : Host.Outcome State Fault Refusal → Host.Outcome State Fault Refusal
  | .next t => .next (f t)
  | .fault r => .fault r
  | .refused r => .refused r

@[simp] theorem mapNext_next (f : State → State) (t : State) : mapNext f (.next t) = .next (f t) := rfl
@[simp] theorem mapNext_refused (f : State → State) (r : Refusal) : mapNext f (.refused r) = .refused r := rfl

section
variable (a b : Byte) (s : State)

/-! ### State operations that look at no more than one field -/

@[simp] theorem emit_withPins (e : Entry) : (s.withPins a b).emit e = (s.emit e).withPins a b := rfl
@[simp] theorem respond_withPins (r : Response) : respond r (s.withPins a b) = (respond r s).withPins a b := rfl
@[simp] theorem sendResponse_withPins (sym : Byte) :
    sendResponse sym (s.withPins a b) = (sendResponse sym s).withPins a b := rfl
@[simp] theorem delay_withPins (us : Nat) : delay us (s.withPins a b) = (delay us s).withPins a b := rfl
@[simp] theorem raiseError_withPins (k : ErrorKind) (d : Half) :
    raiseError k d (s.withPins a b) = (raiseError k d s).withPins a b := rfl
@[simp] theorem now_withPins : now (s.withPins a b) = ((now s).1, (now s).2.withPins a b) := rfl
@[simp] theorem slotAt_withPins (i : Nat) : slotAt (s.withPins a b) i = slotAt s i := rfl
@[simp] theorem setSlot_withPins (i : Nat) (p : Slot) : setSlot i p (s.withPins a b) = (setSlot i p s).withPins a b := rfl
@[simp] theorem removeSlot_withPins (i : Nat) : removeSlot i (s.withPins a b) = (removeSlot i s).withPins a b := rfl
@[simp] theorem storeRx_withPins (i : Nat) (v : Byte) : storeRx i v (s.withPins a b) = (storeRx i v s).withPins a b := rfl

/-! ### The ports (20_memory.md R66, R70) -/

@[simp] theorem canStart_withPins : canStart (s.withPins a b) = ((canStart s).1, (canStart s).2.withPins a b) := by
  cases h : s.env.senseIn <;> simp [canStart, h] <;> rfl

@[simp] theorem receiveByte_withPins :
    receiveByte (s.withPins a b) = ((receiveByte s).1, (receiveByte s).2.withPins a b) := by
  cases h : s.env.byteIn <;> simp [receiveByte, h] <;> rfl

@[simp] theorem receiveResponse_withPins :
    receiveResponse (s.withPins a b) = ((receiveResponse s).1, (receiveResponse s).2.withPins a b) := by
  cases h : s.env.respIn <;> simp [receiveResponse, h] <;> rfl

@[simp] theorem random_withPins (n : Nat) :
    random n (s.withPins a b) = ((random n s).1, (random n s).2.withPins a b) := by
  cases h : s.env.drawIn <;> simp [random, h] <;> rfl

@[simp] theorem sendBytes_withPins (bs : List Byte) : sendBytes bs (s.withPins a b) = (sendBytes bs s).withPins a b := by
  rw [sendBytes_eq, sendBytes_eq]
  rfl

/-! ### Tests on the registers: none of them is about the pins -/

@[simp] theorem chooseHeader_withPins (explicit : Option Byte) :
    chooseHeader explicit (s.withPins a b) = chooseHeader explicit s := rfl
@[simp] theorem noAckExpected_withPins (dst : Byte) : noAckExpected dst (s.withPins a b) = noAckExpected dst s := rfl
@[simp] theorem freedAtEnd_withPins (p : Slot) : freedAtEnd p (s.withPins a b) = freedAtEnd p s := rfl
@[simp] theorem rejectsReceiver_withPins (dst : Byte) : rejectsReceiver dst (s.withPins a b) = rejectsReceiver dst s := rfl
@[simp] theorem rejectsLength_withPins (len : Byte) : rejectsLength len (s.withPins a b) = rejectsLength len s := rfl
@[simp] theorem rejectsHeader_withPins (h : Byte) : rejectsHeader h (s.withPins a b) = rejectsHeader h s := rfl
@[simp] theorem rejectsBusByte_withPins (i : Nat) (h v : Byte) :
    rejectsBusByte i h v (s.withPins a b) = rejectsBusByte i h v s := rfl
@[simp] theorem ackGuard_withPins (frame : List Byte) : ackGuard frame (s.withPins a b) = ackGuard frame s := rfl

/-! ### Enqueuing (41_queue_scheduler.md R150) -/

@[simp] theorem enq_withPins (dst : Byte) (rbus : BusId) (timing : Word) (explicit : Option Byte) (payload : List Byte) :
    enq dst rbus timing explicit payload (s.withPins a b) =
      ((enq dst rbus timing explicit payload s).1, (enq dst rbus timing explicit payload s).2.withPins a b) := by
  have hfree : freeSlot (s.withPins a b) = freeSlot s := rfl
  unfold enq
  simp only [hfree, chooseHeader_withPins, State.withPins_packetMaxLength]
  split
  · rfl
  · split <;> rfl

@[simp] theorem enqueueCommand_withPins (dst : Byte) (rbus : BusId) (timing : Word) (explicit : Option Byte)
    (payload : List Byte) :
    enqueueCommand dst rbus timing explicit payload (s.withPins a b) =
      (enqueueCommand dst rbus timing explicit payload s).withPins a b := by
  simp [enqueueCommand]

theorem enqueueOperands_withPins (dst : Byte) (rbus : BusId) (timing : Word) (hsel header : Byte) (payload : List Byte) :
    enqueueOperands dst rbus timing hsel header payload (s.withPins a b) =
      mapNext (State.withPins a b) (enqueueOperands dst rbus timing hsel header payload s) := by
  unfold enqueueOperands
  cases headerOperand hsel header <;> simp

/-! ### The transmit engine (42_transmit.md R180) -/

@[simp] theorem awaitResponse_withPins :
    awaitResponse (s.withPins a b) = ((awaitResponse s).1, (awaitResponse s).2.withPins a b) := by
  unfold awaitResponse
  simp only [receiveResponse_withPins, random_withPins, delay_withPins]
  split <;> rfl

@[simp] theorem transmitFrame_withPins (dst len h : Byte) (body : List Byte) :
    transmitFrame dst len h body (s.withPins a b) =
      ((transmitFrame dst len h body s).1, (transmitFrame dst len h body s).2.withPins a b) := by
  unfold transmitFrame
  simp only [sendBytes_withPins, noAckExpected_withPins, awaitResponse_withPins]
  split <;> rfl

@[simp] theorem transmit_withPins (dst len h : Byte) (body : List Byte) :
    transmit dst len h body (s.withPins a b) =
      ((transmit dst len h body s).1, (transmit dst len h body s).2.withPins a b) := by
  unfold transmit
  simp only [State.withPins_commMode, transmitFrame_withPins, canStart_withPins]
  split
  · rfl
  · split <;> rfl

@[simp] theorem transmitSlot_withPins (i : Nat) :
    transmitSlot i (s.withPins a b) = ((transmitSlot i s).1, (transmitSlot i s).2.withPins a b) := by
  simp [transmitSlot]

/-! ### The scheduler (41_queue_scheduler.md R160) -/

@[simp] theorem handleAck_withPins (i : Nat) : handleAck i (s.withPins a b) = (handleAck i s).withPins a b := by
  cases hfreed : freedAtEnd (slotAt s i) s <;> simp [handleAck, hfreed]

@[simp] theorem afterConnectionLost_withPins (i : Nat) :
    afterConnectionLost i (s.withPins a b) = (afterConnectionLost i s).withPins a b := by
  by_cases hfreed : freedAtEnd (slotAt s i) s = true
  · have hfreed' : freedAtEnd (slotAt (s.withPins a b) i) (s.withPins a b) = true := hfreed
    rw [afterConnectionLost, afterConnectionLost, if_pos hfreed, if_pos hfreed', removeSlot_withPins]
  · have hfreed' : ¬ freedAtEnd (slotAt (s.withPins a b) i) (s.withPins a b) = true := hfreed
    rw [afterConnectionLost, afterConnectionLost, if_neg hfreed, if_neg hfreed']
    by_cases hrepeat : (slotAt s i).timing ≠ 0
    · have hrepeat' : (slotAt (s.withPins a b) i).timing ≠ 0 := hrepeat
      rw [if_pos hrepeat, if_pos hrepeat', setSlot_withPins, slotAt_withPins]
    · have hrepeat' : ¬ (slotAt (s.withPins a b) i).timing ≠ 0 := hrepeat
      rw [if_neg hrepeat, if_neg hrepeat']

@[simp] theorem handleExhausted_withPins (i : Nat) :
    handleExhausted i (s.withPins a b) = (handleExhausted i s).withPins a b := by
  unfold handleExhausted
  simp only [slotAt_withPins, raiseError_withPins, afterConnectionLost_withPins]
  split <;> rfl

@[simp] theorem handleFail_withPins (i : Nat) : handleFail i (s.withPins a b) = (handleFail i s).withPins a b := by
  have hcount : countAttempt i (s.withPins a b) = (countAttempt i s).withPins a b := rfl
  unfold handleFail
  simp only [hcount, slotAt_withPins, handleExhausted_withPins]
  split <;> rfl

@[simp] theorem handleOutcome_withPins (i : Nat) (o : Outcome) :
    handleOutcome i o (s.withPins a b) = (handleOutcome i o s).withPins a b := by
  cases o with
  | ack => exact handleAck_withPins a b (storeOutcome i .ack s) i
  | fail => exact handleFail_withPins a b (storeOutcome i .fail s) i
  | busy => rfl
  | nak => rfl

@[simp] theorem tickSlot_withPins (i : Nat) : tickSlot i (s.withPins a b) = (tickSlot i s).withPins a b := by
  unfold tickSlot
  simp only [slotAt_withPins, now_withPins, transmitSlot_withPins, handleOutcome_withPins]
  split
  · rfl
  · split <;> rfl

@[simp] theorem tick_withPins : tick (s.withPins a b) = (tick s).withPins a b := by
  unfold tick
  rw [State.withPins_queue]
  generalize List.range s.queue.length = l
  induction l generalizing s with
  | nil => rfl
  | cons i l ih => simpa using ih (tickSlot i s)

/-! ### The receive engine (43_receive.md R201) -/

@[simp] theorem receiveInto_withPins (i : Nat) :
    receiveInto i (s.withPins a b) = ((receiveInto i s).1, (receiveInto i s).2.withPins a b) := by
  unfold receiveInto
  cases h : (receiveByte s).1 <;> simp [h]

@[simp] theorem receiveRest_withPins (n i : Nat) (h : Byte) (frame : List Byte) :
    receiveRest n i h frame (s.withPins a b) =
      ((receiveRest n i h frame s).1, (receiveRest n i h frame s).2.withPins a b) := by
  induction n generalizing i frame s with
  | zero => rfl
  | succ n ih =>
    unfold receiveRest
    simp only [receiveInto_withPins, rejectsBusByte_withPins, ih]
    split
    · rfl
    · split <;> rfl

@[simp] theorem respondSymbol_withPins (sym : Byte) (frame : List Byte) :
    respondSymbol sym frame (s.withPins a b) = (respondSymbol sym frame s).withPins a b := by
  cases hdue : ackGuard frame s <;> simp [respondSymbol, hdue]

@[simp] theorem acceptFrame_withPins (frame : List Byte) :
    acceptFrame frame (s.withPins a b) = (acceptFrame frame s).withPins a b := by
  have hinfo : storeInfo frame (s.withPins a b) = (storeInfo frame s).withPins a b := rfl
  unfold acceptFrame
  rw [hinfo, respondSymbol_withPins]
  rfl

@[simp] theorem finishFrame_withPins (frame : List Byte) :
    finishFrame frame (s.withPins a b) = ((finishFrame frame s).1, (finishFrame frame s).2.withPins a b) := by
  unfold finishFrame
  simp only [acceptFrame_withPins, respondSymbol_withPins]
  split <;> rfl

@[simp] theorem receiveTail_withPins (dst len h : Byte) :
    receiveTail dst len h (s.withPins a b) = ((receiveTail dst len h s).1, (receiveTail dst len h s).2.withPins a b) := by
  unfold receiveTail
  simp only [receiveRest_withPins, finishFrame_withPins]
  split <;> rfl

@[simp] theorem receiveHeader_withPins (dst len : Byte) :
    receiveHeader dst len (s.withPins a b) = ((receiveHeader dst len s).1, (receiveHeader dst len s).2.withPins a b) := by
  unfold receiveHeader
  simp only [receiveInto_withPins, rejectsHeader_withPins, receiveTail_withPins]
  split
  · rfl
  · split <;> rfl

@[simp] theorem receiveLength_withPins (dst : Byte) :
    receiveLength dst (s.withPins a b) = ((receiveLength dst s).1, (receiveLength dst s).2.withPins a b) := by
  unfold receiveLength
  simp only [receiveInto_withPins, rejectsLength_withPins, receiveHeader_withPins]
  split
  · rfl
  · split <;> rfl

@[simp] theorem receive1_withPins : receive1 (s.withPins a b) = ((receive1 s).1, (receive1 s).2.withPins a b) := by
  unfold receive1
  simp only [receiveInto_withPins, rejectsReceiver_withPins, receiveLength_withPins]
  split
  · rfl
  · split <;> rfl

/-! ### The turns of the two commands that loop (43_receive.md R230, 45_id_acquisition.md R270) -/

theorem receiveForTurn_withPins (t0 : Time) (duration : Word) :
    receiveForTurn t0 duration (s.withPins a b) = (receiveForTurn t0 duration s).withPins a b := by
  unfold receiveForTurn
  simp only [receive1_withPins, now_withPins]
  split
  · rfl
  · split <;> rfl

theorem acquireScanTurn_withPins (t0 : Time) (k : Nat) :
    acquireScanTurn t0 k (s.withPins a b) = (acquireScanTurn t0 k s).withPins a b := by
  have hprobe (u : State) : enqProbe k (u.withPins a b) = ((enqProbe k u).1, (enqProbe k u).2.withPins a b) := by
    simp [enqProbe]
  unfold acquireScanTurn
  simp only [now_withPins, hprobe]
  split
  · split
    · rfl
    · split <;> rfl
  · rfl

theorem acquireNext_withPins (t0 : Time) (k : Nat) :
    acquireNext t0 k (s.withPins a b) = (acquireNext t0 k s).withPins a b := by
  unfold acquireNext
  simp only [State.withPins_deviceId]
  split <;> rfl

theorem acquireProbeTurn_withPins (t0 : Time) (k slot : Nat) :
    acquireProbeTurn t0 k slot (s.withPins a b) = (acquireProbeTurn t0 k slot s).withPins a b := by
  have hrunning : { (now s).2.withPins a b with running := Running.acquireProbe t0 k slot } =
    State.withPins a b { (now s).2 with running := .acquireProbe t0 k slot } := rfl
  unfold acquireProbeTurn
  simp only [slotAt_withPins, now_withPins, acquireNext_withPins, hrunning, tick_withPins]
  split
  · rfl
  · split <;> rfl

theorem resume_withPins : resume (s.withPins a b) = (resume s).withPins a b := by
  unfold resume
  simp only [State.withPins_running]
  split
  · rfl
  · exact receiveForTurn_withPins ..
  · exact acquireScanTurn_withPins ..
  · exact acquireProbeTurn_withPins ..

/-! ### Instructions -/

theorem setFlag_withPins {v : Byte} {write write' : Bool → State} (hw : ∀ x, write' x = (write x).withPins a b) :
    setFlag v write' = mapNext (State.withPins a b) (setFlag v write) := by
  unfold setFlag
  cases boolOperand v <;> simp [hw]

theorem execSetMode_withPins (m : Byte) :
    execSetMode m (s.withPins a b) = mapNext (State.withPins a b) (execSetMode m s) := by
  unfold execSetMode
  cases modeOperand m <;> rfl

theorem execReply_withPins (payload : List Byte) :
    execReply payload (s.withPins a b) = mapNext (State.withPins a b) (execReply payload s) := by
  unfold execReply
  simp only [State.withPins_lpiValid, State.withPins_lpi, enqueueCommand_withPins]
  split
  · split <;> rfl
  · rfl

theorem execRemove_withPins (slot : Byte) :
    execRemove slot (s.withPins a b) = mapNext (State.withPins a b) (execRemove slot s) := by
  unfold execRemove
  simp only [State.withPins_queue]
  split <;> rfl

theorem execRespSlot_withPins (slot : Byte) :
    execRespSlot slot (s.withPins a b) = mapNext (State.withPins a b) (execRespSlot slot s) := by
  unfold execRespSlot
  simp only [State.withPins_queue]
  split <;> rfl

theorem execErrevt_withPins (code : Byte) (data : Half) :
    execErrevt code data (s.withPins a b) = mapNext (State.withPins a b) (execErrevt code data s) := by
  unfold execErrevt
  cases errorOfCode code <;> rfl

theorem wireFrame_withPins (dir : Direction) (dst h : Byte) (content : List Byte) (crc : Byte) :
    wireFrame dir dst h content crc (s.withPins a b) =
      mapNext (State.withPins a b) (wireFrame dir dst h content crc s) := by
  cases dir with
  | sent =>
    simp only [wireFrame, sendFrame, transmit_withPins]
    split <;> rfl
  | received =>
    have hdelivered (bytes : List Byte) :
        deliverFrame bytes (s.withPins a b) = (deliverFrame bytes s).withPins a b := rfl
    simp only [wireFrame, receiveFrame, hdelivered, receive1_withPins]
    rfl

theorem wireSymbol_withPins (dir : Direction) (sym : Byte) :
    wireSymbol dir sym (s.withPins a b) = (wireSymbol dir sym s).withPins a b := by
  cases dir with
  | sent => rfl
  | received =>
    have h := awaitResponse_withPins a b (deliverSymbol sym s)
    exact congrArg Prod.snd h

/-- Every instruction but `SET_PINS` does the same with other pins, which it leaves as they are. -/
theorem exec_withPins {i : Instr} (hi : ∀ c d, i ≠ .setPins c d) :
    exec i (s.withPins a b) = mapNext (State.withPins a b) (exec i s) := by
  cases i with
  | setPins c d => exact absurd rfl (hi c d)
  | beginOp =>
    have hseed : seed (s.withPins a b) = (seed s).withPins a b := rfl
    simp [exec, execBegin, hseed]
  | update => simp [exec, execUpdate]
  | tick => simp [exec, execTick]
  | receive => simp [exec, execReceive]
  | receiveFor duration => simp [exec, execReceiveFor, receiveForTurn_withPins]
  | acquireId => simp [exec, execAcquireId, acquireScanTurn_withPins]
  | enqueue | sendH | sendRepeatedlyH => exact enqueueOperands_withPins ..
  | send => simp [exec, execSend]
  | sendRepeatedly => simp [exec, execSendRepeatedly]
  | reply payload => exact execReply_withPins ..
  | remove slot => exact execRemove_withPins ..
  | getId | setId | setBusId => rfl
  | setShared | setRouter | setSenderInfo | setAck | setAutoDelete => exact setFlag_withPins a b fun _ => rfl
  | setMode m => exact execSetMode_withPins ..
  | frameLocal | frameShared | frameLocalSender | frameSharedSender => exact wireFrame_withPins ..
  | ack => simp [exec, execAck, wireSymbol_withPins]
  | nak => simp [exec, execNak, wireSymbol_withPins]
  | respVoid | respEnqFail | respOutcome | respNoop | respId | rxevt => rfl
  | respSlot slot => exact execRespSlot_withPins ..
  | errevt code data => exact execErrevt_withPins ..

/-- A step that is not that of a `SET_PINS` does the same with other pins, which it leaves as they are. -/
theorem step_withPins (hcmd : s.running = .idle → ∀ bytes rest c d, s.inbox = bytes :: rest →
      decode ⟨.command, bytes⟩ ≠ .ok (.setPins c d)) :
    step (s.withPins a b) = mapNext (State.withPins a b) (step s) := by
  rcases step_cases s with ⟨hrun, he⟩ | ⟨hidle, hinbox, he⟩ | ⟨bytes, rest, i, hidle, hinbox, hdec, he⟩ |
    ⟨bytes, rest, why, hidle, hinbox, hdec, he⟩ <;> rw [he]
  · simp [step, hrun, resume_withPins]
  · simp [step, hidle, fetch, hinbox]
  · have hi : ∀ c d, i ≠ .setPins c d := by
      rintro c d rfl
      exact hcmd hidle bytes rest c d hinbox hdec
    rw [step_of_decodeCommand (s := s.withPins a b) hidle hinbox hdec]
    exact exec_withPins a b { s with inbox := rest } hi
  · simp [step, hidle, fetch, hinbox, hdec]

end

/-- Settles O59: giving the block other pins commutes with every step and instruction but `SET_PINS`, which overwrites both. -/
theorem pinsAreReadByNothing : Obligations.PinsAreReadByNothing := by
  intro s t a b
  refine ⟨fun hcmd h => ?_, fun i hi h => ?_, fun _ _ => rfl⟩
  · exact (step_withPins a b s hcmd).trans (by rw [h]; rfl)
  · exact (exec_withPins a b s hi).trans (by rw [h]; rfl)

end Sys2Proof.Machine
end

section
/-! Which registers an operation writes (10_state.md R22 to R31, 20_memory.md R61): what the shared operations leave unchanged,
and from that the rule of every instruction and of every turn. -/

namespace Sys2Proof.Machine

/-! ### What is left unchanged -/

/-- The registers that a setter alone writes, and the parameter: the block's own state without `DEVICE_ID`, the queue, the
receive side, what runs and the command stream. -/
def State.config (s : State) : State :=
  { s.own with
    deviceId := 0, queue := [], rxbuf := [], lpi := ⟨0, 0, BusId.zero, BusId.zero, 0⟩, lpiValid := false, running := .idle
    inbox := [] }

/-- No configuration register but `DEVICE_ID` is written, no parameter, and the queue keeps its size. -/
abbrev KeepsConfig (s t : State) : Prop := t.config = s.config ∧ t.queue.length = s.queue.length

/-- The receive side is not written. -/
abbrev KeepsReceiveSide (s t : State) : Prop := t.rxbuf = s.rxbuf ∧ t.lpi = s.lpi ∧ t.lpiValid = s.lpiValid

/-- Of the registers, the slots at most are written, as by an enqueue. What runs next is left open. -/
abbrev WritesSlots (s t : State) : Prop := KeepsConfig s t ∧ KeepsReceiveSide s t ∧ t.deviceId = s.deviceId

/-- Of the registers, the receive side at most is written, as by a pass of the receive engine. What runs next is left open. -/
abbrev WritesReceiveSide (s t : State) : Prop := KeepsConfig s t ∧ t.queue = s.queue ∧ t.deviceId = s.deviceId

theorem config_of_own {s t : State} (h : t.own = s.own) : t.config = s.config :=
  (congrArg State.config h :)

theorem keepsConfig_trans {s t u : State} (h : KeepsConfig s t) (h' : KeepsConfig t u) : KeepsConfig s u :=
  ⟨h'.1.trans h.1, h'.2.trans h.2⟩

theorem keepsReceiveSide_of_own {s t : State} (h : t.own = s.own) : KeepsReceiveSide s t :=
  ⟨rxbuf_of_own h, lpi_of_own h, lpiValid_of_own h⟩

theorem keepsConfig_of_own {s t : State} (h : t.own = s.own) : KeepsConfig s t :=
  ⟨config_of_own h, by rw [queue_of_own h]⟩

theorem keepsReceiveSide_trans {s t u : State} (h : KeepsReceiveSide s t) (h' : KeepsReceiveSide t u) :
    KeepsReceiveSide s u := by
  obtain ⟨hb, hl, hv⟩ := h
  obtain ⟨hb', hl', hv'⟩ := h'
  exact ⟨hb'.trans hb, hl'.trans hl, hv'.trans hv⟩

theorem writesSlots_of_own {s t : State} (h : t.own = s.own) : WritesSlots s t :=
  ⟨keepsConfig_of_own h, keepsReceiveSide_of_own h, deviceId_of_own h⟩

theorem writesSlots_trans {s t u : State} (h : WritesSlots s t) (h' : WritesSlots t u) : WritesSlots s u := by
  obtain ⟨hc, hr, hd⟩ := h
  obtain ⟨hc', hr', hd'⟩ := h'
  exact ⟨keepsConfig_trans hc hc', keepsReceiveSide_trans hr hr', hd'.trans hd⟩

theorem writesReceiveSide_of_own {s t : State} (h : t.own = s.own) : WritesReceiveSide s t :=
  ⟨keepsConfig_of_own h, queue_of_own h, deviceId_of_own h⟩

theorem writesReceiveSide_trans {s t u : State} (h : WritesReceiveSide s t) (h' : WritesReceiveSide t u) :
    WritesReceiveSide s u := by
  obtain ⟨hc, hq, hd⟩ := h
  obtain ⟨hc', hq', hd'⟩ := h'
  exact ⟨keepsConfig_trans hc hc', hq'.trans hq, hd'.trans hd⟩

/-! ### The shared operations -/

theorem keepsReceiveSide_of_queueWrite {s t : State} (h : QueueWrite s t) : KeepsReceiveSide s t :=
  ⟨(congrArg State.rxbuf h :), (congrArg State.lpi h :), (congrArg State.lpiValid h :)⟩

theorem tick_keepsConfig (s : State) : KeepsConfig s (tick s) :=
  ⟨(congrArg State.config (tick_queueWrite s) :), tick_queue_length s⟩

theorem tick_keepsReceiveSide (s : State) : KeepsReceiveSide s (tick s) :=
  keepsReceiveSide_of_queueWrite (tick_queueWrite s)

theorem setSlot_writesSlots (i : Nat) (p : Slot) (s : State) : WritesSlots s (setSlot i p s) :=
  ⟨⟨rfl, by simp [setSlot]⟩, ⟨rfl, rfl, rfl⟩, rfl⟩

theorem enq_writesSlots (dst : Byte) (rbus : BusId) (timing : Word) (explicit : Option Byte) (payload : List Byte) (s : State) :
    WritesSlots s (enq dst rbus timing explicit payload s).2 := by
  rcases enq_cases dst rbus timing explicit payload s with ⟨_, h⟩ | ⟨_, _, h⟩ | ⟨i, _, _, h⟩ <;> rw [h]
  · exact writesSlots_of_own (raiseError_own ..)
  · exact writesSlots_of_own (raiseError_own ..)
  · exact writesSlots_trans (writesSlots_of_own (now_own s)) (setSlot_writesSlots ..)

theorem enqueueCommand_writesSlots (dst : Byte) (rbus : BusId) (timing : Word) (explicit : Option Byte) (payload : List Byte)
    (s : State) : WritesSlots s (enqueueCommand dst rbus timing explicit payload s) :=
  writesSlots_trans (enq_writesSlots ..) (writesSlots_of_own (respond_own ..))

theorem receive1_writesReceiveSide (s : State) : WritesReceiveSide s (receive1 s).2 := by
  have h := receive1_rxWrite s
  have hq : (receive1 s).2.queue = s.queue := (congrArg State.queue h :)
  exact ⟨⟨(congrArg State.config h :), by rw [hq]⟩, hq, (congrArg State.deviceId h :)⟩

theorem running_writesReceiveSide (s : State) (r : Running) : WritesReceiveSide s { s with running := r } :=
  ⟨⟨rfl, rfl⟩, rfl, rfl⟩

theorem endReceiveFor_writesReceiveSide (o : Outcome) (s : State) : WritesReceiveSide s (endReceiveFor o s) :=
  ⟨⟨rfl, rfl⟩, rfl, rfl⟩

/-! ### The turns (43_receive.md R230, 45_id_acquisition.md R270) -/

/-- A pass, perhaps a clock read, and what runs next. -/
theorem receiveForTurn_writesReceiveSide (t0 : Time) (duration : Word) (s : State) :
    WritesReceiveSide s (receiveForTurn t0 duration s) := by
  have hpass := receive1_writesReceiveSide s
  have hclock := writesReceiveSide_trans hpass (writesReceiveSide_of_own (now_own (receive1 s).2))
  rcases receiveForTurn_cases t0 duration s with ⟨_, h⟩ | ⟨_, h⟩ | ⟨_, h⟩ <;> rw [h]
  · exact writesReceiveSide_trans hpass (endReceiveFor_writesReceiveSide ..)
  · exact writesReceiveSide_trans hclock (endReceiveFor_writesReceiveSide ..)
  · exact writesReceiveSide_trans hclock (running_writesReceiveSide ..)

/-- The end of a scan writes what runs and nothing else. -/
theorem failAcquire_writesSlots (s : State) : WritesSlots s (failAcquire s) :=
  ⟨⟨rfl, rfl⟩, ⟨rfl, rfl, rfl⟩, rfl⟩

theorem acquireScanTurn_writesSlots (t0 : Time) (k : Nat) (s : State) : WritesSlots s (acquireScanTurn t0 k s) := by
  have hprobe : WritesSlots s (enqProbe k (now s).2).2 :=
    writesSlots_trans (writesSlots_of_own (now_own s)) (enq_writesSlots ..)
  rcases acquireScanTurn_cases t0 k s with ⟨_, h⟩ | ⟨_, h⟩ | ⟨_, _, h⟩ | ⟨i, _, _, h⟩ <;> rw [h]
  · exact failAcquire_writesSlots s
  · exact failAcquire_writesSlots (now s).2
  · exact writesSlots_trans hprobe (failAcquire_writesSlots _)
  · exact hprobe

theorem acquireNext_writesSlots (t0 : Time) (k : Nat) (s : State) : WritesSlots s (acquireNext t0 k s) := by
  rcases acquireNext_cases t0 k s with h | h <;> rw [h] <;> exact ⟨⟨rfl, rfl⟩, ⟨rfl, rfl, rfl⟩, rfl⟩

/-- A turn of the inner loop makes at most one `TICK`, which may adopt the id (R166). -/
theorem acquireProbeTurn_keeps (t0 : Time) (k slot : Nat) (s : State) :
    KeepsConfig s (acquireProbeTurn t0 k slot s) ∧ KeepsReceiveSide s (acquireProbeTurn t0 k slot s) := by
  rcases acquireProbeTurn_cases t0 k slot s with h | h | h <;> rw [h]
  · obtain ⟨hc, hr, _⟩ := acquireNext_writesSlots t0 k s
    exact ⟨hc, hr⟩
  · obtain ⟨hc, hr, _⟩ := acquireNext_writesSlots t0 k (now s).2
    exact ⟨hc, hr⟩
  · exact ⟨tick_keepsConfig { (now s).2 with running := .acquireProbe t0 k slot },
      tick_keepsReceiveSide { (now s).2 with running := .acquireProbe t0 k slot }⟩

theorem resume_keepsConfig (s : State) : KeepsConfig s (resume s) := by
  unfold resume
  split
  · exact ⟨rfl, rfl⟩
  · exact (receiveForTurn_writesReceiveSide ..).1
  · exact (acquireScanTurn_writesSlots ..).1
  · exact (acquireProbeTurn_keeps ..).1

theorem resume_keepsReceiveSide {s : State} (h : ∀ t0 duration, s.running ≠ .receiveFor t0 duration) :
    KeepsReceiveSide s (resume s) := by
  unfold resume
  split
  · exact ⟨rfl, rfl, rfl⟩
  · next t0 duration heq => exact absurd heq (h t0 duration)
  · obtain ⟨_, hr, _⟩ := acquireScanTurn_writesSlots _ _ s
    exact hr
  · exact (acquireProbeTurn_keeps ..).2

/-! ### Instructions -/

/-- The instructions that the spec lets write `DEVICE_ID` in one step (R22). -/
def MayWriteDeviceId (i : Instr) : Prop := i = .update ∨ i = .tick ∨ ∃ id, i = .setId id

/-- The instructions that the spec lets write the queue (R61). -/
def MayWriteQueue (i : Instr) : Prop :=
  i = .update ∨ i = .tick ∨ i = .acquireId ∨ (∃ slot, i = .remove slot) ∨ (∃ pl, i = .reply pl) ∨
    (∃ dst bus pl, i = .send dst bus pl) ∨ (∃ dst bus pl h, i = .sendH dst bus pl h) ∨
    (∃ dst bus pl tm, i = .sendRepeatedly dst bus pl tm) ∨ (∃ dst bus pl tm h, i = .sendRepeatedlyH dst bus pl tm h) ∨
    (∃ dst bus tm hs h pl, i = .enqueue dst bus tm hs h pl)

/-- The instructions that the spec, and for the frame rows log 13, lets write the receive side (R61). -/
def MayWriteReceiveSide (i : Instr) : Prop :=
  i = .receive ∨ (∃ d, i = .receiveFor d) ∨ (encode i).space = .frame .received

/-- Every register that an instruction changed is one that the spec lets it write (R22 to R31, R61). -/
def WritesItsRegistersOnly (i : Instr) (s t : State) : Prop :=
  (t.deviceId ≠ s.deviceId → MayWriteDeviceId i) ∧
    (t.busId ≠ s.busId → ∃ bus, i = .setBusId bus) ∧
    (t.commMode ≠ s.commMode → ∃ m, i = .setMode m) ∧
    (t.acknowledge ≠ s.acknowledge → ∃ v, i = .setAck v) ∧
    (t.senderInfoEn ≠ s.senderInfoEn → ∃ v, i = .setSenderInfo v) ∧
    (t.shared ≠ s.shared → ∃ v, i = .setShared v) ∧
    (t.router ≠ s.router → ∃ v, i = .setRouter v) ∧
    (t.autoDelete ≠ s.autoDelete → ∃ v, i = .setAutoDelete v) ∧
    ((t.inputPin ≠ s.inputPin ∨ t.outputPin ≠ s.outputPin) → ∃ a b, i = .setPins a b) ∧
    (t.queue ≠ s.queue → MayWriteQueue i) ∧
    ((t.rxbuf ≠ s.rxbuf ∨ t.lpi ≠ s.lpi ∨ t.lpiValid ≠ s.lpiValid) → MayWriteReceiveSide i) ∧
    t.packetMaxLength = s.packetMaxLength ∧ t.queue.length = s.queue.length

/-- An instruction that writes no setter's register is judged by `DEVICE_ID`, the queue and the receive side. -/
theorem writesItsRegistersOnly_of_keepsConfig {i : Instr} {s t : State} (h : KeepsConfig s t)
    (hid : t.deviceId ≠ s.deviceId → MayWriteDeviceId i) (hqueue : t.queue ≠ s.queue → MayWriteQueue i)
    (hrx : (t.rxbuf ≠ s.rxbuf ∨ t.lpi ≠ s.lpi ∨ t.lpiValid ≠ s.lpiValid) → MayWriteReceiveSide i) :
    WritesItsRegistersOnly i s t := by
  obtain ⟨hconfig, hlength⟩ := h
  refine ⟨hid, fun hne => ?_, fun hne => ?_, fun hne => ?_, fun hne => ?_, fun hne => ?_, fun hne => ?_, fun hne => ?_,
    fun hne => ?_, hqueue, hrx, (congrArg State.packetMaxLength hconfig :), hlength⟩
  · exact absurd (congrArg State.busId hconfig) hne
  · exact absurd (congrArg State.commMode hconfig) hne
  · exact absurd (congrArg State.acknowledge hconfig) hne
  · exact absurd (congrArg State.senderInfoEn hconfig) hne
  · exact absurd (congrArg State.shared hconfig) hne
  · exact absurd (congrArg State.router hconfig) hne
  · exact absurd (congrArg State.autoDelete hconfig) hne
  · rcases hne with hne | hne
    · exact absurd (congrArg State.inputPin hconfig) hne
    · exact absurd (congrArg State.outputPin hconfig) hne

theorem not_changed_of_keepsReceiveSide {s t : State} (h : KeepsReceiveSide s t) :
    ¬ (t.rxbuf ≠ s.rxbuf ∨ t.lpi ≠ s.lpi ∨ t.lpiValid ≠ s.lpiValid) := by
  obtain ⟨hb, hl, hv⟩ := h
  simp [hb, hl, hv]

theorem writesItsRegistersOnly_of_own {i : Instr} {s t : State} (h : t.own = s.own) : WritesItsRegistersOnly i s t :=
  writesItsRegistersOnly_of_keepsConfig (keepsConfig_of_own h) (fun hne => absurd (deviceId_of_own h) hne)
    (fun hne => absurd (queue_of_own h) hne)
    (fun hne => absurd hne (not_changed_of_keepsReceiveSide (keepsReceiveSide_of_own h)))

theorem writesItsRegistersOnly_of_writesSlots {i : Instr} {s t : State} (h : WritesSlots s t) (hi : MayWriteQueue i) :
    WritesItsRegistersOnly i s t := by
  obtain ⟨hc, hr, hd⟩ := h
  exact writesItsRegistersOnly_of_keepsConfig hc (fun hne => absurd hd hne) (fun _ => hi)
    (fun hne => absurd hne (not_changed_of_keepsReceiveSide hr))

theorem writesItsRegistersOnly_of_writesReceiveSide {i : Instr} {s t : State} (h : WritesReceiveSide s t)
    (hi : MayWriteReceiveSide i) : WritesItsRegistersOnly i s t := by
  obtain ⟨hc, hq, hd⟩ := h
  exact writesItsRegistersOnly_of_keepsConfig hc (fun hne => absurd hd hne) (fun hne => absurd hq hne) (fun _ => hi)

/-- `UPDATE` and its spelling `TICK`. -/
theorem writesItsRegistersOnly_tick {i : Instr} (s : State) (hi : i = .update ∨ i = .tick) :
    WritesItsRegistersOnly i s (respond .void (tick s)) := by
  have hid : MayWriteDeviceId i := hi.elim .inl fun h => .inr (.inl h)
  have hqueue : MayWriteQueue i := hi.elim .inl fun h => .inr (.inl h)
  exact writesItsRegistersOnly_of_keepsConfig (tick_keepsConfig s) (fun _ => hid) (fun _ => hqueue)
    (fun hne => absurd hne (not_changed_of_keepsReceiveSide (tick_keepsReceiveSide s)))

/-- A frame sent writes nothing; a frame received, the receive side (log 13). -/
theorem writesItsRegistersOnly_wireFrame {i : Instr} {s t : State} {dir : Direction} {dst h : Byte} {content : List Byte}
    {crc : Byte} (hf : wireFrame dir dst h content crc s = .next t) (hi : (encode i).space = .frame dir) :
    WritesItsRegistersOnly i s t := by
  rcases wireFrame_next hf with hown | ⟨rfl, hown⟩
  · exact writesItsRegistersOnly_of_own hown
  · obtain ⟨hc, hq, hd⟩ := receive1_writesReceiveSide (deliverFrame (frameBody dst h content ++ [crc]) s)
    have hpass : WritesReceiveSide s (receive1 (deliverFrame (frameBody dst h content ++ [crc]) s)).2 := ⟨hc, hq, hd⟩
    exact writesItsRegistersOnly_of_writesReceiveSide (writesReceiveSide_trans hpass (writesReceiveSide_of_own hown))
      (.inr (.inr hi))

theorem writesItsRegistersOnly_enqueueOperands {i : Instr} {s t : State} {dst : Byte} {rbus : BusId} {timing : Word}
    {hsel header : Byte} {payload : List Byte} (h : enqueueOperands dst rbus timing hsel header payload s = .next t)
    (hi : MayWriteQueue i) : WritesItsRegistersOnly i s t := by
  obtain ⟨explicit, _, rfl⟩ := enqueueOperands_next h
  exact writesItsRegistersOnly_of_writesSlots (enqueueCommand_writesSlots ..) hi

theorem exec_writesItsRegistersOnly {i : Instr} {s t : State} (h : exec i s = .next t) : WritesItsRegistersOnly i s t := by
  cases i with
  | beginOp =>
    cases h
    exact writesItsRegistersOnly_of_own (by simp)
  | update =>
    cases h
    exact writesItsRegistersOnly_tick s (.inl rfl)
  | tick =>
    cases h
    exact writesItsRegistersOnly_tick s (.inr rfl)
  | receive =>
    cases h
    exact writesItsRegistersOnly_of_writesReceiveSide (receive1_writesReceiveSide s) (.inl rfl)
  | receiveFor duration =>
    cases h
    exact writesItsRegistersOnly_of_writesReceiveSide (receiveForTurn_writesReceiveSide _ _ (now s).2)
      (.inr (.inl ⟨duration, rfl⟩))
  | acquireId =>
    cases h
    exact writesItsRegistersOnly_of_writesSlots (acquireScanTurn_writesSlots _ _ (now s).2) (by simp [MayWriteQueue])
  | enqueue | sendH | sendRepeatedlyH => exact writesItsRegistersOnly_enqueueOperands h (by simp [MayWriteQueue])
  | send | sendRepeatedly =>
    cases h
    exact writesItsRegistersOnly_of_writesSlots (enqueueCommand_writesSlots ..) (by simp [MayWriteQueue])
  | reply payload =>
    rcases execReply_next h with rfl | rfl
    · exact writesItsRegistersOnly_of_own (respond_own ..)
    · exact writesItsRegistersOnly_of_writesSlots (enqueueCommand_writesSlots ..) (by simp [MayWriteQueue])
  | remove slot =>
    rw [execRemove_next h]
    exact writesItsRegistersOnly_of_writesSlots (setSlot_writesSlots slot.toNat Slot.empty s) (by simp [MayWriteQueue])
  | setId | setBusId | setPins =>
    cases h
    simp [WritesItsRegistersOnly, MayWriteDeviceId]
  | setShared | setRouter | setSenderInfo | setAck | setAutoDelete =>
    obtain ⟨b, rfl⟩ := setFlag_next h
    simp [WritesItsRegistersOnly]
  | setMode m =>
    obtain ⟨c, rfl⟩ := execSetMode_next h
    simp [WritesItsRegistersOnly]
  | frameLocal | frameShared | frameLocalSender | frameSharedSender => exact writesItsRegistersOnly_wireFrame h rfl
  | ack | nak =>
    cases h
    exact writesItsRegistersOnly_of_own (wireSymbol_own ..)
  | getId | respVoid | respEnqFail | respOutcome | respNoop | respId | rxevt =>
    cases h
    exact writesItsRegistersOnly_of_own (emit_own ..)
  | respSlot slot =>
    rw [execRespSlot_next h]
    exact writesItsRegistersOnly_of_own (respond_own ..)
  | errevt code data =>
    obtain ⟨kind, rfl⟩ := execErrevt_next h
    exact writesItsRegistersOnly_of_own (raiseError_own ..)

/-- Settles O56: the rule of each instruction, and for the turns what a pass, a probe and a `TICK` leave unchanged. -/
theorem registersAreWrittenOnlyByTheirCommands : Obligations.RegistersAreWrittenOnlyByTheirCommands := by
  refine ⟨fun i s t h => exec_writesItsRegistersOnly h, fun s => ?_⟩
  obtain ⟨hconfig, hlength⟩ := resume_keepsConfig s
  refine ⟨(congrArg State.busId hconfig :), (congrArg State.commMode hconfig :), (congrArg State.acknowledge hconfig :),
    (congrArg State.senderInfoEn hconfig :), (congrArg State.shared hconfig :), (congrArg State.router hconfig :),
    (congrArg State.autoDelete hconfig :), (congrArg State.inputPin hconfig :), (congrArg State.outputPin hconfig :),
    (congrArg State.packetMaxLength hconfig :), hlength, ?_, resume_keepsReceiveSide⟩
  rintro ⟨t0, duration, hrun⟩
  obtain ⟨_, hqueue, hid⟩ := receiveForTurn_writesReceiveSide t0 duration s
  rw [resume, hrun]
  exact ⟨hid, hqueue⟩

end Sys2Proof.Machine
end

section
/-! The ports and the trace (20_memory.md): what each transaction records, that a step loses nothing of what has happened, and
that a command answers once, last of all. -/

namespace Sys2Proof.Machine

/-- Settles O19, from the own-state and the trace rule of each port operation. -/
theorem portTransactionsAreRecorded : Obligations.PortTransactionsAreRecorded := by
  intro s b n d
  have hclock : s.env.time + d ≤ (now (delay d s)).2.env.time := passTime_le (delay d s).env
  exact ⟨⟨canStart_own s, canStart_trace s⟩, ⟨receiveByte_own s, receiveByte_trace s⟩,
    ⟨receiveResponse_own s, receiveResponse_trace s⟩, ⟨sendByte_own b s, sendByte_trace b s⟩,
    ⟨sendResponse_own b s, sendResponse_trace b s⟩, ⟨now_own s, now_trace s⟩, ⟨delay_own d s, delay_trace d s⟩,
    ⟨seed_own s, seed_trace s⟩, ⟨random_own n s, random_trace n s⟩, fun hn => random_lt hn s, hclock, rfl⟩

/-! ### Entries that are no response -/

section
variable (es : List Entry)

@[simp] theorem responses_nil : responses [] = [] := rfl
@[simp] theorem responses_cons_canStart (idle : Bool) : responses (.canStart idle :: es) = responses es := rfl
@[simp] theorem responses_cons_receiveByte (v : Option Byte) : responses (.receiveByte v :: es) = responses es := rfl
@[simp] theorem responses_cons_sendResponse (sym : Byte) : responses (.sendResponse sym :: es) = responses es := rfl
@[simp] theorem responses_cons_receiveResponse (v : Half) : responses (.receiveResponse v :: es) = responses es := rfl
@[simp] theorem responses_cons_now (t : Time) : responses (.now t :: es) = responses es := rfl
@[simp] theorem responses_cons_delay (us : Nat) : responses (.delay us :: es) = responses es := rfl
@[simp] theorem responses_cons_random (n r : Nat) : responses (.random n r :: es) = responses es := rfl
@[simp] theorem responses_cons_seed : responses (.seed :: es) = responses es := rfl
@[simp] theorem responses_cons_errevt (k : ErrorKind) (d : Half) : responses (.errevt k d :: es) = responses es := rfl
@[simp] theorem responses_cons_rxevt (off len : Byte) (info : PacketInfo) :
    responses (.rxevt off len info :: es) = responses es := rfl

end

/-! ### The engines respond to no command -/

@[simp] theorem awaitResponse_responses (s : State) : responses (awaitResponse s).2.trace = responses s.trace := by
  unfold awaitResponse
  dsimp only
  split <;> simp

@[simp] theorem transmitFrame_responses (dst len h : Byte) (body : List Byte) (s : State) :
    responses (transmitFrame dst len h body s).2.trace = responses s.trace := by
  unfold transmitFrame
  dsimp only
  split <;> simp

@[simp] theorem transmit_responses (dst len h : Byte) (body : List Byte) (s : State) :
    responses (transmit dst len h body s).2.trace = responses s.trace := by
  unfold transmit
  dsimp only
  split
  · simp
  · split <;> simp

@[simp] theorem transmitSlot_responses (i : Nat) (s : State) :
    responses (transmitSlot i s).2.trace = responses s.trace := transmit_responses ..

@[simp] theorem handleAck_responses (i : Nat) (s : State) : responses (handleAck i s).trace = responses s.trace := by
  unfold handleAck
  split <;> simp

@[simp] theorem afterConnectionLost_trace (i : Nat) (s : State) : (afterConnectionLost i s).trace = s.trace := by
  unfold afterConnectionLost
  split
  · rfl
  · split <;> rfl

@[simp] theorem handleExhausted_responses (i : Nat) (s : State) :
    responses (handleExhausted i s).trace = responses s.trace := by
  unfold handleExhausted
  split <;> simp

@[simp] theorem handleFail_responses (i : Nat) (s : State) : responses (handleFail i s).trace = responses s.trace := by
  unfold handleFail
  dsimp only
  split <;> simp [countAttempt]

@[simp] theorem handleOutcome_responses (i : Nat) (o : Outcome) (s : State) :
    responses (handleOutcome i o s).trace = responses s.trace := by
  cases o <;> simp [handleOutcome, storeOutcome]

@[simp] theorem tickSlot_responses (i : Nat) (s : State) : responses (tickSlot i s).trace = responses s.trace := by
  rcases tickSlot_cases i s with ⟨_, h⟩ | ⟨_, _, h⟩ | ⟨_, _, h⟩ <;> simp [h]

@[simp] theorem tick_responses (s : State) : responses (tick s).trace = responses s.trace := by
  unfold tick
  generalize List.range s.queue.length = l
  induction l generalizing s with
  | nil => rfl
  | cons i l ih => exact (ih _).trans (tickSlot_responses i s)

@[simp] theorem enq_responses (dst : Byte) (rbus : BusId) (timing : Word) (explicit : Option Byte) (payload : List Byte)
    (s : State) : responses (enq dst rbus timing explicit payload s).2.trace = responses s.trace := by
  rcases enq_cases dst rbus timing explicit payload s with ⟨_, h⟩ | ⟨_, _, h⟩ | ⟨i, _, _, h⟩ <;> simp [h]

@[simp] theorem receiveInto_responses (i : Nat) (s : State) :
    responses (receiveInto i s).2.trace = responses s.trace := by
  simp [receiveInto_trace]

@[simp] theorem receiveRest_responses (n i : Nat) (h : Byte) (frame : List Byte) (s : State) :
    responses (receiveRest n i h frame s).2.trace = responses s.trace := by
  induction n generalizing i frame s with
  | zero => rfl
  | succ n ih =>
    unfold receiveRest
    dsimp only
    split
    · simp
    · split <;> simp [ih]

@[simp] theorem respondSymbol_responses (sym : Byte) (frame : List Byte) (s : State) :
    responses (respondSymbol sym frame s).trace = responses s.trace := by
  unfold respondSymbol
  split <;> simp

@[simp] theorem finishFrame_responses (frame : List Byte) (s : State) :
    responses (finishFrame frame s).2.trace = responses s.trace := by
  rcases finishFrame_cases frame s with ⟨_, h⟩ | ⟨_, h⟩ <;> simp [h, acceptFrame, storeInfo]

@[simp] theorem receiveTail_responses (dst len h : Byte) (s : State) :
    responses (receiveTail dst len h s).2.trace = responses s.trace := by
  unfold receiveTail
  dsimp only
  split <;> simp

@[simp] theorem receiveHeader_responses (dst len : Byte) (s : State) :
    responses (receiveHeader dst len s).2.trace = responses s.trace := by
  unfold receiveHeader
  dsimp only
  split
  · simp
  · split <;> simp

@[simp] theorem receiveLength_responses (dst : Byte) (s : State) :
    responses (receiveLength dst s).2.trace = responses s.trace := by
  unfold receiveLength
  dsimp only
  split
  · simp
  · split <;> simp

@[simp] theorem receive1_responses (s : State) : responses (receive1 s).2.trace = responses s.trace := by
  unfold receive1
  dsimp only
  split
  · simp
  · split <;> simp

/-! ### A stretch without a response, and the end of a command (20_memory.md R65) -/

/-- Nothing is lost and no response is added. -/
abbrev AddsNoResponse (s t : State) : Prop := s.advances t ∧ responses t.trace = responses s.trace

/-- The command answers and nothing runs any more, or it runs on and has not answered yet. -/
def AnswersOrRunsOn (s t : State) : Prop :=
  (t.running = .idle ∧ ∃ u r, AddsNoResponse s u ∧ t = respond r u) ∨ (t.running ≠ .idle ∧ AddsNoResponse s t)

theorem addsNoResponse_refl (s : State) : AddsNoResponse s s := ⟨advances_refl s, rfl⟩

theorem addsNoResponse_trans {s t u : State} (h : AddsNoResponse s t) (h' : AddsNoResponse t u) : AddsNoResponse s u :=
  ⟨advances_trans h.1 h'.1, h'.2.trans h.2⟩

/-- The entries that were added are no responses. -/
theorem addedEntries_of_addsNoResponse {s t : State} (h : AddsNoResponse s t) :
    ∃ es, t.trace = s.trace ++ es ∧ responses es = [] := by
  obtain ⟨⟨⟨es, hes⟩, _⟩, hresp⟩ := h
  exact ⟨es, hes.symm, by simpa [← hes] using hresp⟩

theorem now_addsNoResponse (s : State) : AddsNoResponse s (now s).2 := ⟨now_advances s, by simp⟩
theorem raiseError_addsNoResponse (k : ErrorKind) (d : Half) (s : State) : AddsNoResponse s (raiseError k d s) :=
  ⟨raiseError_advances k d s, by simp⟩
theorem running_addsNoResponse (s : State) (r : Running) : AddsNoResponse s { s with running := r } :=
  ⟨running_advances s r, rfl⟩
theorem tick_addsNoResponse (s : State) : AddsNoResponse s (tick s) := ⟨tick_advances s, tick_responses s⟩
theorem enq_addsNoResponse (dst : Byte) (rbus : BusId) (timing : Word) (explicit : Option Byte) (payload : List Byte)
    (s : State) : AddsNoResponse s (enq dst rbus timing explicit payload s).2 :=
  ⟨enq_advances .., enq_responses ..⟩
theorem receive1_addsNoResponse (s : State) : AddsNoResponse s (receive1 s).2 :=
  ⟨receive1_advances s, receive1_responses s⟩

/-- What a command does before its first turn, or before its response, adds to what follows. -/
theorem answersOrRunsOn_trans {s t u : State} (h : AddsNoResponse s t) (h' : AnswersOrRunsOn t u) :
    AnswersOrRunsOn s u := by
  rcases h' with ⟨hidle, v, r, hv, rfl⟩ | ⟨hrun, hu⟩
  · exact .inl ⟨hidle, v, r, addsNoResponse_trans h hv, rfl⟩
  · exact .inr ⟨hrun, addsNoResponse_trans h hu⟩

theorem respond_answersOrRunsOn {s u : State} (r : Response) (hidle : u.running = .idle) (h : AddsNoResponse s u) :
    AnswersOrRunsOn s (respond r u) := .inl ⟨hidle, u, r, h, rfl⟩

theorem advances_of_answersOrRunsOn {s t : State} (h : AnswersOrRunsOn s t) : s.advances t := by
  rcases h with ⟨_, u, r, ⟨hu, _⟩, rfl⟩ | ⟨_, ht, _⟩
  · exact advances_trans hu (respond_advances r u)
  · exact ht

/-! ### The turns (43_receive.md R230, 45_id_acquisition.md R270) -/

theorem endReceiveFor_answersOrRunsOn (o : Outcome) (s : State) : AnswersOrRunsOn s (endReceiveFor o s) :=
  respond_answersOrRunsOn (u := { s with running := .idle }) _ rfl (addsNoResponse_refl s)

theorem receiveForTurn_answersOrRunsOn (t0 : Time) (duration : Word) (s : State) :
    AnswersOrRunsOn s (receiveForTurn t0 duration s) := by
  have hpass := receive1_addsNoResponse s
  have hclock := addsNoResponse_trans hpass (now_addsNoResponse (receive1 s).2)
  rcases receiveForTurn_cases t0 duration s with ⟨_, h⟩ | ⟨_, h⟩ | ⟨_, h⟩ <;> rw [h]
  · exact answersOrRunsOn_trans hpass (endReceiveFor_answersOrRunsOn ..)
  · exact answersOrRunsOn_trans hclock (endReceiveFor_answersOrRunsOn ..)
  · exact .inr ⟨(fun h => nomatch h), hclock⟩

theorem endAcquire_answersOrRunsOn (s : State) : AnswersOrRunsOn s (endAcquire s) :=
  respond_answersOrRunsOn (u := { s with running := .idle }) _ rfl (addsNoResponse_refl s)

/-- The event comes before the response (45_id_acquisition.md R274). -/
theorem failAcquire_answersOrRunsOn (s : State) : AnswersOrRunsOn s (failAcquire s) :=
  answersOrRunsOn_trans (raiseError_addsNoResponse ..) (endAcquire_answersOrRunsOn _)

theorem acquireScanTurn_answersOrRunsOn (t0 : Time) (k : Nat) (s : State) :
    AnswersOrRunsOn s (acquireScanTurn t0 k s) := by
  have hclock := now_addsNoResponse s
  have hprobe : AddsNoResponse s (enqProbe k (now s).2).2 := addsNoResponse_trans hclock (enq_addsNoResponse ..)
  rcases acquireScanTurn_cases t0 k s with ⟨_, h⟩ | ⟨_, h⟩ | ⟨_, _, h⟩ | ⟨i, _, _, h⟩ <;> rw [h]
  · exact failAcquire_answersOrRunsOn s
  · exact answersOrRunsOn_trans hclock (failAcquire_answersOrRunsOn _)
  · exact answersOrRunsOn_trans hprobe (failAcquire_answersOrRunsOn _)
  · exact .inr ⟨(fun h => nomatch h), hprobe⟩

theorem acquireNext_answersOrRunsOn (t0 : Time) (k : Nat) (s : State) : AnswersOrRunsOn s (acquireNext t0 k s) := by
  rcases acquireNext_cases t0 k s with h | h <;> rw [h]
  · exact endAcquire_answersOrRunsOn s
  · exact .inr ⟨(fun h => nomatch h), addsNoResponse_refl s⟩

@[simp] theorem tick_running (s : State) : (tick s).running = s.running :=
  (congrArg State.running (tick_queueWrite s) :)

theorem acquireProbeTurn_answersOrRunsOn (t0 : Time) (k slot : Nat) (s : State) :
    AnswersOrRunsOn s (acquireProbeTurn t0 k slot s) := by
  have hclock := now_addsNoResponse s
  rcases acquireProbeTurn_cases t0 k slot s with h | h | h <;> rw [h]
  · exact acquireNext_answersOrRunsOn ..
  · exact answersOrRunsOn_trans hclock (acquireNext_answersOrRunsOn ..)
  · have hturn := addsNoResponse_trans hclock (running_addsNoResponse (now s).2 (.acquireProbe t0 k slot))
    exact .inr ⟨by simp, addsNoResponse_trans hturn (tick_addsNoResponse _)⟩

theorem resume_answersOrRunsOn {s : State} (hrun : s.running ≠ .idle) : AnswersOrRunsOn s (resume s) := by
  unfold resume
  split
  · next hidle => exact absurd hidle hrun
  · exact receiveForTurn_answersOrRunsOn ..
  · exact acquireScanTurn_answersOrRunsOn ..
  · exact acquireProbeTurn_answersOrRunsOn ..

/-! ### Commands -/

theorem enqueueCommand_answersOrRunsOn {s : State} (dst : Byte) (rbus : BusId) (timing : Word) (explicit : Option Byte)
    (payload : List Byte) (hidle : s.running = .idle) :
    AnswersOrRunsOn s (enqueueCommand dst rbus timing explicit payload s) := by
  have hrun : (enq dst rbus timing explicit payload s).2.running = s.running :=
    (congrArg State.running (enq_own dst rbus timing explicit payload s) :)
  exact respond_answersOrRunsOn _ (hrun.trans hidle) (enq_addsNoResponse ..)

theorem enqueueOperands_answersOrRunsOn {s t : State} {dst : Byte} {rbus : BusId} {timing : Word} {hsel header : Byte}
    {payload : List Byte} (hidle : s.running = .idle)
    (h : enqueueOperands dst rbus timing hsel header payload s = .next t) : AnswersOrRunsOn s t := by
  obtain ⟨explicit, _, rfl⟩ := enqueueOperands_next h
  exact enqueueCommand_answersOrRunsOn _ _ _ _ _ hidle

/-- Each command ends with its response or runs on without one. A frame, symbol or record row ends no command (log 13,
log 14), and the hypothesis on the encoding leaves it out. -/
theorem exec_answersOrRunsOn {i : Instr} {s t : State} (hcmd : (encode i).space = .command) (hidle : s.running = .idle)
    (h : exec i s = .next t) : AnswersOrRunsOn s t := by
  cases i with
  | beginOp =>
    cases h
    have hdraw := advances_trans (seed_advances s) (random_advances Config.initialMaxDelay (seed s))
    have hrun : (random Config.initialMaxDelay (seed s)).2.running = s.running := running_of_own (by simp)
    exact respond_answersOrRunsOn _ (hrun.trans hidle) ⟨advances_trans hdraw (delay_advances ..), by simp⟩
  | update | tick =>
    cases h
    exact respond_answersOrRunsOn _ ((tick_running s).trans hidle) (tick_addsNoResponse s)
  | receive =>
    cases h
    have hrun : (receive1 s).2.running = s.running := (congrArg State.running (receive1_rxWrite s) :)
    exact respond_answersOrRunsOn _ (hrun.trans hidle) (receive1_addsNoResponse s)
  | receiveFor duration =>
    cases h
    exact answersOrRunsOn_trans (now_addsNoResponse s) (receiveForTurn_answersOrRunsOn ..)
  | acquireId =>
    cases h
    exact answersOrRunsOn_trans (now_addsNoResponse s) (acquireScanTurn_answersOrRunsOn ..)
  | enqueue | sendH | sendRepeatedlyH => exact enqueueOperands_answersOrRunsOn hidle h
  | send | sendRepeatedly =>
    cases h
    exact enqueueCommand_answersOrRunsOn _ _ _ _ _ hidle
  | reply payload =>
    rcases execReply_next h with rfl | rfl
    · exact respond_answersOrRunsOn _ hidle (addsNoResponse_refl s)
    · exact enqueueCommand_answersOrRunsOn _ _ _ _ _ hidle
  | remove slot =>
    rw [execRemove_next h]
    exact respond_answersOrRunsOn _ hidle (addsNoResponse_refl s)
  | getId | setId | setBusId | setPins =>
    cases h
    exact respond_answersOrRunsOn _ hidle (addsNoResponse_refl s)
  | setShared | setRouter | setSenderInfo | setAck | setAutoDelete =>
    obtain ⟨b, rfl⟩ := setFlag_next h
    exact respond_answersOrRunsOn _ hidle (addsNoResponse_refl s)
  | setMode m =>
    obtain ⟨c, rfl⟩ := execSetMode_next h
    exact respond_answersOrRunsOn _ hidle (addsNoResponse_refl s)
  | frameLocal | frameShared | frameLocalSender | frameSharedSender | ack | nak | respVoid | respSlot | respEnqFail
  | respOutcome | respNoop | respId | rxevt | errevt => cases hcmd

/-! ### Step -/

/-- An idle step changes nothing; any other ends its command with the response, or leaves it running without one. -/
theorem step_answersOrRunsOn {s t : State} (h : step s = .next t) :
    (s.running = .idle ∧ s.inbox = [] ∧ t = s) ∨ AnswersOrRunsOn s t := by
  rcases step_cases s with ⟨hrun, he⟩ | ⟨hidle, hinbox, he⟩ | ⟨bytes, rest, i, hidle, _, hdec, he⟩ |
    ⟨_, _, _, _, _, _, he⟩ <;> rw [he] at h
  · cases h
    exact .inr (resume_answersOrRunsOn hrun)
  · cases h
    exact .inl ⟨hidle, hinbox, rfl⟩
  · have hcmd : (encode i).space = .command := by rw [encode_of_decodeCommand hdec]; rfl
    exact .inr (exec_answersOrRunsOn (s := { s with inbox := rest }) hcmd hidle h)
  · cases h

/-- Settles O54: an idle step changes nothing, and a command's step only adds entries, with or without its response. -/
theorem everyStepExtendsTheTrace : Obligations.EveryStepExtendsTheTrace := by
  intro s t h
  rcases step_answersOrRunsOn h with ⟨_, _, rfl⟩ | hturn
  · exact advances_refl t
  · exact advances_of_answersOrRunsOn hturn

/-- Settles O55: the entries before the response, or all of them while the command runs, are those of a stretch without one. -/
theorem oneResponsePerCommand : Obligations.OneResponsePerCommand := by
  intro s t h hbusy
  rcases step_answersOrRunsOn h with ⟨hidle, hinbox, _⟩ | ⟨hidle, u, r, hu, rfl⟩ | ⟨hrun, ht⟩
  · exact absurd hbusy (by simp [hidle, hinbox])
  · obtain ⟨es, hes, hresp⟩ := addedEntries_of_addsNoResponse hu
    exact ⟨fun _ => ⟨es, r, by simp [hes], hresp⟩, fun hrun => absurd hidle hrun⟩
  · exact ⟨fun hidle => absurd hidle hrun, fun _ => addedEntries_of_addsNoResponse ht⟩

end Sys2Proof.Machine
end

section
/-! Frame packets (30_encoding.md R90, R95): the header byte taken apart and put together, and the frame rows decoded and
encoded. -/

namespace Sys2Proof.Machine

/-! ### The header byte of a frame row: the row in bits 1..0, the flags above (R95) -/

@[simp] theorem headerOfRow_row (flags : BitVec 6) (row : BitVec 2) : (headerOfRow flags row).extractLsb' 0 2 = row :=
  BitVec.extractLsb'_append_eq_right

@[simp] theorem headerOfRow_flags (flags : BitVec 6) (row : BitVec 2) :
    (headerOfRow flags row).extractLsb' 2 6 = flags :=
  BitVec.extractLsb'_append_eq_left

@[simp] theorem headerOfRow_extract (h : Byte) : headerOfRow (h.extractLsb' 2 6) (h.extractLsb' 0 2) = h := by
  have hjoin : h.extractLsb' 2 6 ++ h.extractLsb' 0 2 = h.extractLsb' 0 8 :=
    BitVec.extractLsb'_append_extractLsb'_eq_extractLsb' rfl
  exact hjoin.trans BitVec.extractLsb'_eq_self

/-- Bits 7..2 of the header are the flags. -/
theorem getLsbD_headerOfRow_flags (flags : BitVec 6) (row : BitVec 2) (j : Nat) :
    (headerOfRow flags row).getLsbD (2 + j) = flags.getLsbD j :=
  BitVec.getLsbD_append.trans (by rw [if_neg (by omega), Nat.add_sub_cancel_left])

/-- Bits 7..3 of the header are the flags without the lowest one, `ACK_REQUEST` (R93, R94). -/
theorem reservedBitsClear_headerOfRow (flags : BitVec 6) (row : BitVec 2) :
    reservedBitsClear (headerOfRow flags row) = true ↔ flags >>> 1 = 0 := by
  have hbit (j : Nat) : (headerOfRow flags row >>> 3).getLsbD j = (flags >>> 1).getLsbD j := by
    have hsum : 3 + j = 2 + (1 + j) := by omega
    simp [hsum, getLsbD_headerOfRow_flags]
  simp only [reservedBitsClear, decide_eq_true_eq]
  constructor
  · intro h
    exact BitVec.eq_of_getLsbD_eq fun j _ => by simp [← hbit, h]
  · intro h
    exact BitVec.eq_of_getLsbD_eq fun j _ => by simp [hbit, h]

end Sys2Proof.Machine

namespace Sys2Proof

/-! ### Decoding the packet of a frame (R90, R98) -/

/-- A frame whose length fits the length byte is read by its header, with its last byte as the CRC (R90, R97). -/
theorem decodeFrame_frameBody (dir : Direction) (dst h : Byte) {content : List Byte} (crc : Byte)
    (hlen : content.length + 4 ≤ 255) :
    decodeFrame dir (Machine.frameBody dst h content ++ [crc]) = decodeFrameRest dir dst h (content ++ [crc]) := by
  have hbyte : (BitVec.ofNat 8 (content.length + 4)).toNat = (content ++ [crc]).length + 3 := by
    simp only [BitVec.toNat_ofNat, List.length_append, List.length_singleton]
    omega
  exact if_pos hbyte

theorem length_le_of_frameFits {dir : Direction} {dst h : Byte} {content : List Byte} {crc : Byte}
    (hw : frameFits dir dst h content crc = true) : content.length + 4 ≤ 255 :=
  of_decide_eq_true (Bool.and_eq_true_iff.1 hw).1

/-- The packet of a frame row decodes by its header, where its operands fit. -/
theorem decode_framePacket {dir : Direction} {dst h : Byte} {content : List Byte} {crc : Byte}
    (hw : frameFits dir dst h content crc = true) :
    decode (framePacket dir dst h content crc) = decodeFrameRest dir dst h (content ++ [crc]) :=
  decodeFrame_frameBody dir dst h crc (length_le_of_frameFits hw)

/-- The packet whose header and rest a frame was read from (R90). -/
theorem framePacket_of_length_eq {dir : Direction} {dst len h : Byte} {content : List Byte} {crc : Byte}
    (hlen : len.toNat = (content ++ [crc]).length + 3) :
    framePacket dir dst h content crc = ⟨.frame dir, dst :: len :: h :: (content ++ [crc])⟩ := by
  have hbyte : BitVec.ofNat 8 (content.length + 4) = len := by
    have hnat : content.length + 4 = len.toNat := by simpa using hlen.symm
    simp [hnat]
  simp [framePacket, Machine.frameBody, hbyte]

/-- The header byte from the number of its row and its flags. -/
theorem headerOfRow_of_row {h : Byte} {row : BitVec 2} (hrow : (h.extractLsb' 0 2).toNat = row.toNat) :
    Machine.headerOfRow (h.extractLsb' 2 6) row = h := by
  rw [← BitVec.eq_of_toNat_eq hrow, Machine.headerOfRow_extract]

/-- The bytes after the header are a content and the CRC byte, and the row is the one whose packet they stand in (R95, R97). -/
theorem encode_of_decodeFrameRest {dir : Direction} {dst h : Byte} {rest : List Byte} {i : Instr}
    (hdec : decodeFrameRest dir dst h rest = .ok i) :
    ∃ content crc, rest = content ++ [crc] ∧ encode i = framePacket dir dst h content crc := by
  unfold decodeFrameRest at hdec
  split at hdec
  next => cases hdec
  next content crc hsplit =>
    refine ⟨content, crc, eq_of_splitLast hsplit, ?_⟩
    split at hdec <;> cases hdec
    all_goals
      next hrow => exact congrArg (framePacket dir dst · _ crc) (headerOfRow_of_row hrow)

/-- A byte sequence that is laid out as a frame row is that row's packet, the length byte included (R90, R98). -/
theorem encode_of_decodeFrame {dir : Direction} {bytes : List Byte} {i : Instr} (hdec : decodeFrame dir bytes = .ok i) :
    encode i = ⟨.frame dir, bytes⟩ := by
  unfold decodeFrame at hdec
  split at hdec
  · split at hdec
    next hlen =>
      obtain ⟨content, crc, rfl, henc⟩ := encode_of_decodeFrameRest hdec
      exact henc.trans (framePacket_of_length_eq hlen)
    next => cases hdec
  · cases hdec

end Sys2Proof
end

section
/-! The packets of every stream, decoded and encoded (30_encoding.md R110 to R120): the two round trips. -/

namespace Sys2Proof

/-! ### Encode, then decode -/

/-- A payload that fits has as many bytes as its `len` byte says (R114, R115). -/
theorem length_eq_len_toNat {payload : List Byte} (hfit : payloadFits payload = true) :
    payload.length = (BitVec.ofNat 8 payload.length).toNat :=
  (Nat.mod_eq_of_lt (Nat.lt_succ_of_le (of_decide_eq_true hfit))).symm

theorem operandsReply_lenPayload {payload : List Byte} (hfit : payloadFits payload = true) :
    operandsReply (lenPayload payload) = .ok (.reply payload) :=
  if_pos (length_eq_len_toNat hfit)

theorem decode_enqueuePacket (dst : Byte) (rbus : BusId) (timing : Word) (hsel header : Byte) {payload : List Byte}
    (hfit : payloadFits payload = true) :
    decode (enqueuePacket dst rbus timing hsel header payload) = .ok (.enqueue dst rbus timing hsel header payload) := by
  refine (if_pos (length_eq_len_toNat hfit)).trans ?_
  rw [word32_bytes]

/-- The record of a kind that carries one byte: the byte, and a zero above it (R118). -/
theorem responsePacket_setWidth (kind v : Byte) : responsePacket kind (v.setWidth 16) = ⟨.response, [kind, v, 0]⟩ := by
  have hlow : (v.setWidth 16).extractLsb' 0 8 = v := BitVec.eq_of_toNat_eq (by simp; omega)
  have hhigh : (v.setWidth 16).extractLsb' 8 8 = 0 := BitVec.eq_of_toNat_eq (by simp; omega)
  rw [responsePacket, half16Bytes, hlow, hhigh]

/-- Decoding undoes encoding, pseudo-commands up to their expansion (R126). -/
theorem decode_encode {maxPackets : Nat} {i : Instr} (hw : i.wellFormed maxPackets = true) :
    decode (encode i) = .ok i.expand := by
  cases i with
  | beginOp | update | receive | acquireId | getId | setId | setBusId | setShared | setRouter | setSenderInfo | setAck
  | setAutoDelete | setMode | setPins | remove | tick => rfl
  | receiveFor duration => exact congrArg (fun d => Except.ok (Instr.receiveFor d)) (word32_bytes duration)
  | enqueue | sendH | sendRepeatedlyH => exact decode_enqueuePacket _ _ _ _ _ (Bool.and_eq_true_iff.1 hw).1
  | send | sendRepeatedly => exact decode_enqueuePacket _ _ _ _ _ hw
  | reply payload => exact operandsReply_lenPayload hw
  | frameLocal | frameShared | frameLocalSender | frameSharedSender =>
    refine (decode_framePacket hw).trans ?_
    simp only [decodeFrameRest, splitLast_snoc, Machine.headerOfRow_row, Machine.headerOfRow_flags]
    rfl
  | ack | nak | respVoid | respEnqFail | respNoop | rxevt => rfl
  | respSlot | respId =>
    rw [encode, responsePacket_setWidth]
    rfl
  | respOutcome o => cases o <;> rfl
  | errevt code data => exact congrArg (fun d => Except.ok (Instr.errevt code d)) (half16_bytes data)

/-- Settles O1, row by row of the table. -/
theorem decodeEncodeRoundTrip : Obligations.DecodeEncodeRoundTrip :=
  fun _ _ hw => decode_encode hw

/-! ### Decode, then encode -/

/-- The bytes of a 16-bit number are those it was made of (20_memory.md R73). -/
@[simp] theorem half16Bytes_half16 (b0 b1 : Byte) : half16Bytes (half16 b0 b1) = [b0, b1] := by
  have h0 : (half16 b0 b1).extractLsb' 0 8 = b0 := BitVec.extractLsb'_append_eq_right
  have h1 : (half16 b0 b1).extractLsb' 8 8 = b1 := BitVec.extractLsb'_append_eq_left
  simp only [half16Bytes, h0, h1]

theorem encode_of_decodeSymbol {dir : Direction} {bytes : List Byte} {i : Instr} (hdec : decodeSymbol dir bytes = .ok i) :
    encode i = ⟨.symbol dir, bytes⟩ := by
  unfold decodeSymbol at hdec
  split at hdec
  · split_ifs at hdec with hack hnak <;> cases hdec
    · rw [hack, encode]
    · rw [hnak, encode]
  · cases hdec

/-- The outcome of a code has that code (R100, R118). -/
theorem outcomeCode_of_outcomeOfCode {v : Half} {o : Outcome} (h : Machine.outcomeOfCode v = some o) :
    Machine.outcomeCode o = v := by
  unfold Machine.outcomeOfCode at h
  split_ifs at h with hack hnak hbusy hfail <;> cases h
  exacts [hack.symm, hnak.symm, hbusy.symm, hfail.symm]

/-- The value of a record determines its two bytes. -/
theorem responsePacket_half16 (kind v0 v1 : Byte) : responsePacket kind (half16 v0 v1) = ⟨.response, [kind, v0, v1]⟩ := by
  simp [responsePacket]

theorem encode_of_fixedValue {kind v0 v1 : Byte} {want : Half} {i j : Instr} (hj : encode j = responsePacket kind want)
    (hdec : fixedValue j want (half16 v0 v1) = .ok i) : encode i = ⟨.response, [kind, v0, v1]⟩ := by
  unfold fixedValue at hdec
  split at hdec <;> cases hdec
  next hv => rw [hj, ← hv, responsePacket_half16]

theorem encode_of_byteValue {kind v0 v1 : Byte} {i : Instr} {f : Byte → Instr}
    (hf : ∀ v, encode (f v) = responsePacket kind (v.setWidth 16)) (hdec : byteValue f v0 v1 = .ok i) :
    encode i = ⟨.response, [kind, v0, v1]⟩ := by
  unfold byteValue at hdec
  split at hdec <;> cases hdec
  next hv => rw [hf, hv, responsePacket_setWidth]

/-- A response record that decodes is that of its kind and value (R118). One case per kind, in order. -/
theorem encode_of_decodeResponse {bytes : List Byte} {i : Instr} (hdec : decodeResponse bytes = .ok i) :
    encode i = ⟨.response, bytes⟩ := by
  unfold decodeResponse at hdec
  split at hdec
  next kind v0 v1 =>
    have hkind : kind = BitVec.ofNat 8 kind.toNat := by simp
    generalize kind.toNat = n at hdec hkind
    subst hkind
    split at hdec
    · exact encode_of_fixedValue rfl hdec
    · exact encode_of_byteValue (fun _ => rfl) hdec
    · exact encode_of_fixedValue rfl hdec
    · split at hdec <;> cases hdec
      next o ho =>
        exact (congrArg (responsePacket 0x03) (outcomeCode_of_outcomeOfCode ho)).trans (responsePacket_half16 ..)
    · exact encode_of_fixedValue rfl hdec
    · exact encode_of_byteValue (fun _ => rfl) hdec
    · cases hdec
  next => cases hdec

/-- An event record that decodes is that of its fields (R119, R120). -/
theorem encode_of_decodeEvent {bytes : List Byte} {i : Instr} (hdec : decodeEvent bytes = .ok i) :
    encode i = ⟨.event, bytes⟩ := by
  cases bytes with
  | nil => cases hdec
  | cons tag args =>
    have htag : tag = BitVec.ofNat 8 tag.toNat := by simp
    simp only [decodeEvent] at hdec
    generalize tag.toNat = n at hdec htag
    subst htag
    split at hdec <;> cases hdec
    · rfl
    · simp [encode]

/-- Encoding undoes decoding, in every stream. -/
theorem encode_of_decode {p : Packet} {i : Instr} (hdec : decode p = .ok i) : encode i = p := by
  obtain ⟨space, bytes⟩ := p
  cases space with
  | command => exact encode_of_decodeCommand hdec
  | frame dir => exact encode_of_decodeFrame hdec
  | symbol dir => exact encode_of_decodeSymbol hdec
  | response => exact encode_of_decodeResponse hdec
  | event => exact encode_of_decodeEvent hdec

/-- Settles O2: each stream's decoder inverted. -/
theorem encodeDecodeRoundTrip : Obligations.EncodeDecodeRoundTrip :=
  fun _ _ hdec => encode_of_decode hdec

/-! ### Words written out from the spec (95_test_vectors.md) -/

/-- Settles O3: the six packets are closed terms, which the decoder computes. -/
theorem specWordsDecode : Obligations.SpecWordsDecode := by
  unfold Obligations.SpecWordsDecode
  decide

/-! ### Invalid command packets (R121) -/

section
variable {args : List Byte} {i : Instr}

theorem length_of_operandsNone {j : Instr} (h : operandsNone j args = .ok i) : args.length = 0 := by
  unfold operandsNone at h
  split at h <;> cases h
  rfl

theorem length_of_operandsByte {f : Byte → Instr} (h : operandsByte f args = .ok i) : args.length = 1 := by
  unfold operandsByte at h
  split at h <;> cases h
  rfl

theorem length_of_operandsTwoBytes {f : Byte → Byte → Instr} (h : operandsTwoBytes f args = .ok i) : args.length = 2 := by
  unfold operandsTwoBytes at h
  split at h <;> cases h
  rfl

theorem length_of_operandsFourBytes {f : Byte → Byte → Byte → Byte → Instr} (h : operandsFourBytes f args = .ok i) :
    args.length = 4 := by
  unfold operandsFourBytes at h
  split at h <;> cases h
  rfl

/-- The twelfth operand byte of an `ENQUEUE` is its `len` (R114). -/
theorem length_of_operandsEnqueue (h : operandsEnqueue args = .ok i) :
    (args[11]?).map (fun len => 13 + len.toNat) = some (args.length + 1) := by
  unfold operandsEnqueue at h
  split at h
  · split at h <;> cases h
    next hlen => simp [← hlen]; omega
  · cases h

/-- The first operand byte of a `REPLY` is its `len` (R115). -/
theorem length_of_operandsReply (h : operandsReply args = .ok i) :
    (args[0]?).map (fun len => 2 + len.toNat) = some (args.length + 1) := by
  unfold operandsReply at h
  split at h
  · split at h <;> cases h
    next hlen => simp [← hlen]; omega
  · cases h

end

/-- A command packet that decodes has the length that its opcode and `len` fix (R111, R124). One case per opcode, in the order
of the table. -/
theorem commandLength_of_decodeCommand {bytes : List Byte} {i : Instr} (h : decodeCommand bytes = .ok i) :
    commandLength bytes = some bytes.length := by
  cases bytes with
  | nil => cases h
  | cons op args =>
    simp only [decodeCommand] at h
    simp only [commandLength, List.length_cons]
    generalize op.toNat = n at h ⊢
    split at h
    · simp [length_of_operandsNone h]
    · simp [length_of_operandsNone h]
    · simp [length_of_operandsNone h]
    · simp [length_of_operandsFourBytes h]
    · exact length_of_operandsEnqueue h
    · exact length_of_operandsReply h
    · simp [length_of_operandsByte h]
    · simp [length_of_operandsNone h]
    · simp [length_of_operandsNone h]
    · simp [length_of_operandsByte h]
    · simp [length_of_operandsFourBytes h]
    · simp [length_of_operandsByte h]
    · simp [length_of_operandsByte h]
    · simp [length_of_operandsByte h]
    · simp [length_of_operandsByte h]
    · simp [length_of_operandsByte h]
    · simp [length_of_operandsByte h]
    · simp [length_of_operandsTwoBytes h]
    · cases h

/-- The first bytes that are no opcode (R121). -/
def IsReservedOpcode (op : Byte) : Prop := op.toNat = 0 ∨ (0x0A ≤ op.toNat ∧ op.toNat ≤ 0x0F) ∨ 0x19 ≤ op.toNat

theorem decodeCommand_reserved {op : Byte} (args : List Byte) (hop : IsReservedOpcode op) :
    decodeCommand (op :: args) = .error (.reservedOpcode op) := by
  unfold IsReservedOpcode at hop
  simp only [decodeCommand]
  generalize op.toNat = n at hop ⊢
  split
  on_goal 19 => rfl
  all_goals omega

theorem commandLength_reserved {op : Byte} (args : List Byte) (hop : IsReservedOpcode op) :
    commandLength (op :: args) = none := by
  unfold IsReservedOpcode at hop
  simp only [commandLength]
  generalize op.toNat = n at hop ⊢
  split
  on_goal 19 => rfl
  all_goals omega

end Sys2Proof

namespace Sys2Proof.Machine

/-- Between commands, a step on a packet that is no command refuses it (R121). -/
theorem step_of_decodeCommand_error {s : State} {bytes : List Byte} {rest : List (List Byte)} {why : DecodeError}
    (hidle : s.running = .idle) (hinbox : s.inbox = bytes :: rest) (hdec : decodeCommand bytes = .error why) :
    step s = .refused (.invalidPacket why) := by
  simp [step, hidle, fetch_of_inbox_cons hinbox, hdec]

/-- Settles O4: a packet that decodes has the length its opcode fixes, so one that has not is refused. -/
theorem invalidCommandPacketsRefused : Obligations.InvalidCommandPacketsRefused := by
  refine ⟨fun op args hop => ⟨commandLength_reserved args hop, decodeCommand_reserved args hop⟩, ?_⟩
  intro s bytes rest hidle hinbox hlen
  cases hdec : decodeCommand bytes with
  | ok i => exact absurd (commandLength_of_decodeCommand hdec) hlen
  | error why => exact ⟨why, step_of_decodeCommand_error hidle hinbox hdec⟩

end Sys2Proof.Machine
end

section
/-! Operands (30_encoding.md R122, R126): which are refused, and what the send commands do with those that are not. -/

namespace Sys2Proof.Machine

/-! ### Reserved operands (R94, R118, R122) -/

theorem setFlag_reserved {v : Byte} (h0 : v ≠ 0) (h1 : v ≠ 1) (write : Bool → State) :
    setFlag v write = .refused .reservedOperand := by
  rcases setFlag_cases v write with ⟨hv, _⟩ | ⟨hv, _⟩ | ⟨_, _, he⟩
  · exact absurd hv h0
  · exact absurd hv h1
  · exact he

theorem execSetMode_reserved {m : Byte} (h150 : m ≠ 150) (h151 : m ≠ 151) (s : State) :
    execSetMode m s = .refused .reservedOperand := by
  have hmode : modeOperand m = none := (if_neg h150).trans (if_neg h151)
  rw [execSetMode, hmode]

theorem execRemove_outOfRange {s : State} {slot : Byte} (h : s.queue.length ≤ slot.toNat) :
    execRemove slot s = .refused .reservedOperand :=
  if_neg (Nat.not_lt.2 h)

theorem execRespSlot_outOfRange {s : State} {slot : Byte} (h : s.queue.length ≤ slot.toNat) :
    execRespSlot slot s = .refused .reservedOperand :=
  if_neg (Nat.not_lt.2 h)

theorem errorOfCode_eq_none {code : Byte} (h : code.toNat < 101 ∨ 105 < code.toNat) : errorOfCode code = none := by
  unfold errorOfCode
  generalize code.toNat = n at h ⊢
  split
  on_goal 6 => rfl
  all_goals omega

theorem execErrevt_unknownCode {code : Byte} (h : code.toNat < 101 ∨ 105 < code.toNat) (data : Half) (s : State) :
    execErrevt code data s = .refused .reservedOperand := by
  rw [execErrevt, errorOfCode_eq_none h]

section
variable (dst : Byte) (rbus : BusId) (timing : Word) (payload : List Byte) (s : State)

/-- With `hsel = 0` the header byte is not read (R122). -/
theorem enqueueOperands_auto (header : Byte) :
    enqueueOperands dst rbus timing 0 header payload s = .next (enqueueCommand dst rbus timing none payload s) := rfl

theorem enqueueOperands_explicit {header : Byte} (h : header >>> 3 = 0) :
    enqueueOperands dst rbus timing 1 header payload s =
      .next (enqueueCommand dst rbus timing (some header) payload s) := by
  have hop : headerOperand 1 header = .ok (some header) := if_pos (decide_eq_true h)
  rw [enqueueOperands, hop]

theorem enqueueOperands_reservedHeader {header : Byte} (h : header >>> 3 ≠ 0) :
    enqueueOperands dst rbus timing 1 header payload s = .refused .reservedHeaderBits := by
  have hop : headerOperand 1 header = .error .reservedHeaderBits := if_neg (mt of_decide_eq_true h)
  rw [enqueueOperands, hop]

theorem enqueueOperands_reservedSelector {hsel : Byte} (header : Byte) (h0 : hsel ≠ 0) (h1 : hsel ≠ 1) :
    enqueueOperands dst rbus timing hsel header payload s = .refused .reservedOperand := by
  have hop : headerOperand hsel header = .error .reservedOperand := (if_neg h0).trans (if_neg h1)
  rw [enqueueOperands, hop]

end

/-- A frame with a header flag above `ACK_REQUEST` set is not sent (R94). -/
theorem wireFrame_reservedFlags (dst : Byte) {flags : BitVec 6} (row : BitVec 2) (content : List Byte) (crc : Byte) (s : State)
    (h : flags >>> 1 ≠ 0) :
    wireFrame .sent dst (headerOfRow flags row) content crc s = .refused .reservedHeaderBits :=
  if_neg (mt (reservedBitsClear_headerOfRow flags row).1 h)

/-- Settles O5, by the refusal of each operand form. -/
theorem reservedOperandsRefused : Obligations.ReservedOperandsRefused := by
  intro s
  refine ⟨fun v h0 h1 => ?_, fun dst rbus timing hsel header payload h0 h1 => ?_, fun m h150 h151 => ?_, fun slot h => ?_,
    fun dst rbus timing header payload h => ?_, fun dst rbus timing header header' payload => ?_⟩
  · exact ⟨setFlag_reserved h0 h1 _, setFlag_reserved h0 h1 _, setFlag_reserved h0 h1 _, setFlag_reserved h0 h1 _,
      setFlag_reserved h0 h1 _⟩
  · exact enqueueOperands_reservedSelector dst rbus timing payload s header h0 h1
  · exact execSetMode_reserved h150 h151 s
  · exact execRemove_outOfRange h
  · exact enqueueOperands_reservedHeader dst rbus timing payload s h
  · exact (enqueueOperands_auto dst rbus timing payload s header).trans (enqueueOperands_auto _ _ _ _ _ header').symm

/-- Settles O6: the header of a send and of a sent frame is checked by the same rule (R94). -/
theorem reservedRowFormsRefused : Obligations.ReservedRowFormsRefused := by
  intro s dst sid crc h slot code rbus sbus payload timing flags data
  refine ⟨fun hres => ?_, fun hres => ?_, fun hslot => ?_, fun hcode => ?_⟩
  · exact ⟨enqueueOperands_reservedHeader dst rbus 0 payload s hres,
      enqueueOperands_reservedHeader dst rbus timing payload s hres⟩
  · exact ⟨wireFrame_reservedFlags dst 0 _ crc s hres, wireFrame_reservedFlags dst 1 _ crc s hres,
      wireFrame_reservedFlags dst 2 _ crc s hres, wireFrame_reservedFlags dst 3 _ crc s hres⟩
  · exact execRespSlot_outOfRange hslot
  · exact execErrevt_unknownCode hcode data s

/-! ### The spellings of `ENQUEUE` and `UPDATE` (R126) -/

/-- Settles O7: `SEND` and `SEND_REPEATEDLY` are an enqueue whose header the controller chooses, and the others are their
expansion by definition. -/
theorem pseudoCommandsAreTheirExpansion : Obligations.PseudoCommandsAreTheirExpansion := by
  intro s dst bus payload timing header
  exact ⟨(enqueueOperands_auto dst bus 0 payload s 0).symm, rfl, (enqueueOperands_auto dst bus timing payload s 0).symm, rfl,
    rfl, rfl, rfl, rfl, rfl, rfl, rfl⟩

/-- An enqueue that fits, with a free slot, leaves the next state of R150, with the header chosen or given (R151 to R155). -/
theorem enqueueCommand_of_lowestFree {s : State} {i : Nat} {explicit : Option Byte} {payload : List Byte} (dst : Byte)
    (rbus : BusId) (timing : Word) (hfits : overhead (chooseHeader explicit s) + payload.length + 1 < s.packetMaxLength)
    (hfree : LowestFree s i) :
    enqueueCommand dst rbus timing explicit payload s =
      s.enqueued i dst rbus timing (chooseHeader explicit s) payload := by
  obtain ⟨hi, hstate, hlowest⟩ := hfree
  have hlen : ¬ s.packetMaxLength ≤ frameLength (chooseHeader explicit s) payload := Nat.not_le.2 hfits
  simp [enqueueCommand, enq, hlen, freeSlot_of hi hstate hlowest, enqResponse, State.enqueued, respond, State.emit, setSlot,
    now, pendingSlot, slotContent]

/-- Settles O15: each of the four is the enqueue with its header and timing. -/
theorem sendVariantsTakeTheLowestFreeSlot : Obligations.SendVariantsTakeTheLowestFreeSlot := by
  intro s dst bus payload timing header i hfree
  refine ⟨fun hfits => ?_, fun hclear hfits => ?_⟩
  · exact ⟨congrArg _ (enqueueCommand_of_lowestFree (explicit := none) dst bus 0 hfits hfree),
      congrArg _ (enqueueCommand_of_lowestFree (explicit := none) dst bus timing hfits hfree)⟩
  · have hnext (t : Word) : enqueueOperands dst bus t 1 header payload s = .next (s.enqueued i dst bus t header payload) :=
      (enqueueOperands_explicit dst bus t payload s hclear).trans
        (congrArg _ (enqueueCommand_of_lowestFree (explicit := some header) dst bus t hfits hfree))
    exact ⟨hnext 0, hnext timing⟩

end Sys2Proof.Machine
end

section
/-! Rows that are no commands (30_encoding.md R90, R118 to R120; log 13, log 14): records on their streams, and a frame row sent
as the transmit engine sends it. -/

namespace Sys2Proof.Machine

/-- Settles O50: each record is one `emit`. -/
theorem recordRowsPutTheRecordOnItsStream : Obligations.RecordRowsPutTheRecordOnItsStream := by
  intro s slot id off len o info data
  have hslot (h : slot.toNat < s.queue.length) : execRespSlot slot s = .next (respond (.slot slot) s) := if_pos h
  exact ⟨rfl, hslot, rfl, rfl, rfl, rfl, rfl, rfl, rfl, rfl, rfl, rfl⟩

/-! ### The transmit engine on the wire (42_transmit.md R180 to R187) -/

section
variable {s : State} (dst len h : Byte) (body : List Byte)

/-- The frame goes out, and then the response is awaited where one is expected (R182 to R187). -/
theorem transmitFrame_eq (s : State) :
    transmitFrame dst len h body s =
      if noAckExpected dst s then
        (.ack, { s with trace := s.trace ++ (frameBytes dst (len + 4) h body).map Entry.sendByte })
      else awaitResponse { s with trace := s.trace ++ (frameBytes dst (len + 4) h body).map Entry.sendByte } := by
  simp only [transmitFrame, sendBytes_eq]
  rfl

/-- In simplex the frame goes out at once, and no response is awaited (R181, R185). -/
theorem transmit_simplex (hmode : s.commMode = .simplex) :
    transmit dst len h body s =
      (.ack, { s with trace := s.trace ++ (frameBytes dst (len + 4) h body).map Entry.sendByte }) := by
  simp [transmit, transmitFrame_eq, noAckExpected, hmode]

/-- A busy medium sends nothing (R181). -/
theorem transmit_busy (hmode : s.commMode = .halfDuplex) (hsense : (canStart s).1 = false) :
    transmit dst len h body s = (.busy, (canStart s).2) := by
  simp [transmit, hmode, hsense]

/-- An idle medium takes the frame; without acknowledgment or for a broadcast that is all (R181, R185). -/
theorem transmit_noAck (hmode : s.commMode = .halfDuplex) (hsense : (canStart s).1 = true)
    (hnoAck : s.acknowledge = false ∨ dst = 0) :
    transmit dst len h body s =
      (.ack, { (canStart s).2 with
        trace := (canStart s).2.trace ++ (frameBytes dst (len + 4) h body).map Entry.sendByte }) := by
  have hexp : noAckExpected dst (canStart s).2 = true := by
    rcases hnoAck with h | h <;> simp [noAckExpected, Config.broadcast, h]
  simp [transmit, transmitFrame_eq, hmode, hsense, hexp]

/-- An idle medium takes the frame, and the response is awaited where one is expected (R181, R186). -/
theorem transmit_await (hmode : s.commMode = .halfDuplex) (hsense : (canStart s).1 = true) (hack : s.acknowledge = true)
    (hdst : dst ≠ 0) :
    transmit dst len h body s =
      awaitResponse { (canStart s).2 with
        trace := (canStart s).2.trace ++ (frameBytes dst (len + 4) h body).map Entry.sendByte } := by
  have hexp : noAckExpected dst (canStart s).2 = false := by
    have hbroadcast : decide (dst = Config.broadcast) = false := decide_eq_false hdst
    simp [noAckExpected, hbroadcast, hmode, hack]
  simp [transmit, transmitFrame_eq, hmode, hsense, hexp]

end

/-! ### Frame rows (30_encoding.md R90, R95) -/

/-- The bytes of a sent frame determine its parts: the CRC byte is the last, whatever it is (R182 to R184). -/
theorem frameBytes_inj {dst dst' lenByte lenByte' h h' : Byte} {body body' : List Byte}
    (heq : frameBytes dst lenByte h body = frameBytes dst' lenByte' h' body') :
    dst = dst' ∧ lenByte = lenByte' ∧ h = h' ∧ body = body' := by
  obtain ⟨hparts, _⟩ := List.append_inj' heq rfl
  simpa using hparts

/-- The bytes the engine sends are those of the frame's packet with the CRC byte the engine computes (R136, R184). -/
theorem frameBytes_eq_frameBody (dst h : Byte) (content : List Byte) :
    frameBytes dst (BitVec.ofNat 8 content.length + 4) h content =
      frameBody dst h content ++ [crc8 (frameBody dst h content)] := by
  have hlen : BitVec.ofNat 8 content.length + 4 = BitVec.ofNat 8 (content.length + 4) := (BitVec.ofNat_add ..).symm
  rw [frameBytes, hlen]
  rfl

/-- An instruction whose packet is in a frame stream is one of the four frame rows: the wire operation on the fields that its
bytes are made of (R95). -/
theorem wireFrame_of_encode {i : Instr} {dir : Direction} {bytes : List Byte} (henc : encode i = ⟨.frame dir, bytes⟩) :
    ∃ dst h content crc, bytes = frameBody dst h content ++ [crc] ∧
      (∀ maxPackets, i.wellFormed maxPackets = frameFits dir dst h content crc) ∧
      ∀ s, exec i s = wireFrame dir dst h content crc s := by
  cases i with
  | frameLocal | frameShared | frameLocalSender | frameSharedSender =>
    cases henc
    exact ⟨_, _, _, _, rfl, fun _ => rfl, fun _ => rfl⟩
  | _ => cases henc

/-- A well-formed frame row, sent, is the transmit engine on its fields, and its packet the bytes the engine sends. -/
theorem transmit_of_encode {i : Instr} {maxPackets : Nat} {bytes : List Byte} (hw : i.wellFormed maxPackets = true)
    (henc : encode i = ⟨.frame .sent, bytes⟩) :
    ∃ dst h content, bytes = frameBytes dst (BitVec.ofNat 8 content.length + 4) h content ∧
      ∀ s, exec i s = .next (transmit dst (BitVec.ofNat 8 content.length) h content s).2 := by
  obtain ⟨dst, h, content, crc, rfl, hfits, hexec⟩ := wireFrame_of_encode henc
  rw [hfits, frameFits, Bool.and_eq_true_iff, Bool.and_eq_true_iff, decide_eq_true_eq] at hw
  obtain ⟨_, hclear, hcrc⟩ := hw
  refine ⟨dst, h, content, ?_, fun s => (hexec s).trans (if_pos hclear)⟩
  rw [frameBytes_eq_frameBody, of_decide_eq_true hcrc]

/-- The transmit engine on a slot whose content is as long as it says (R183). -/
theorem transmitSlot_of_length_eq {k : Nat} {s : State} (hlen : (slotAt s k).length.toNat = (slotAt s k).content.length) :
    transmitSlot k s =
      transmit (slotAt s k).destination (slotAt s k).length (slotAt s k).header (slotAt s k).content s := by
  rw [transmitSlot, hlen, List.take_length]

/-- Settles O46: the row is the transmit engine on its fields, and a slot that has the same bytes has the same fields. -/
theorem sentFrameRowPutsItsBytesOnTheWire : Obligations.SentFrameRowPutsItsBytesOnTheWire := by
  intro s maxPackets i dst more hw henc
  obtain ⟨dst', h, content, hbytes, hexec⟩ := transmit_of_encode hw henc
  obtain rfl : dst = dst' := (List.cons.inj hbytes).1
  rw [hexec, hbytes]
  refine ⟨fun hmode => ?_, fun hmode hsense => ?_, fun hmode hsense hnoAck => ?_, fun hmode hsense hack hdst => ?_,
    fun k hlen heq => ?_⟩
  · rw [transmit_simplex _ _ _ _ hmode]
  · rw [transmit_busy _ _ _ _ hmode hsense]
  · rw [transmit_noAck _ _ _ _ hmode hsense hnoAck]
  · rw [transmit_await _ _ _ _ hmode hsense hack hdst]
  · obtain ⟨hdst, hlenByte, hheader, hcontent⟩ := frameBytes_inj heq
    rw [transmitSlot_of_length_eq hlen, hdst, add_right_cancel hlenByte, hheader, hcontent]

end Sys2Proof.Machine
end

section
/-! The codec (40_codec.md): which header bits fix the overhead, why the CRC check is exact, and what the deframer reads back
from the bytes the framer lays out. -/

namespace Sys2Proof.Machine

/-! ### The overhead (R133) -/

theorem modeBit_eq_extract (h : Byte) : modeBit h = (h.extractLsb' 0 2).getLsbD 0 := by
  simp [modeBit]

theorem senderInfoBit_eq_extract (h : Byte) : senderInfoBit h = (h.extractLsb' 0 2).getLsbD 1 := by
  simp [senderInfoBit]

/-- The overhead is that of the two low header bits with the flags above them cleared. -/
theorem overhead_eq_of_extract {h : Byte} {row : BitVec 2} (hrow : h.extractLsb' 0 2 = row) :
    overhead h = overhead (headerOfRow 0 row) := by
  simp only [overhead, modeBit_eq_extract, senderInfoBit_eq_extract, hrow, headerOfRow_row]

/-- Settles O11: only the row in the two low bits counts, and there are four rows. -/
theorem overheadByLowHeaderBits : Obligations.OverheadByLowHeaderBits := by
  intro h
  exact ⟨overhead_eq_of_extract, overhead_eq_of_extract, overhead_eq_of_extract, overhead_eq_of_extract, rfl⟩

/-! ### The CRC check (R130 to R132) -/

theorem crc8Rounds_succ (k : Nat) (crc b : Byte) :
    crc8Rounds (k + 1) crc b = crc8Rounds k (crc8Rounds 1 crc b) (b >>> 1) := rfl

theorem crc8Rounds_succ_zero (k : Nat) (crc : Byte) :
    crc8Rounds (k + 1) crc 0 = crc8Rounds k (crc8Rounds 1 crc 0) 0 := rfl

theorem crc8Rounds_one (crc b : Byte) :
    crc8Rounds 1 crc b = if (crc ^^^ b).getLsbD 0 then crc >>> 1 ^^^ 0x8C else crc >>> 1 := rfl

theorem crc8Rounds_one_zero (crc : Byte) :
    crc8Rounds 1 crc 0 = if crc.getLsbD 0 then crc >>> 1 ^^^ 0x8C else crc >>> 1 := by
  rw [crc8Rounds_one, BitVec.ofNat_eq_ofNat, BitVec.xor_zero]

/-- One round on the byte taken into the register beforehand: the rest of the byte is still to be taken in. -/
theorem crc8Rounds_one_xor (crc b : Byte) : crc8Rounds 1 (crc ^^^ b) 0 = crc8Rounds 1 crc b ^^^ b >>> 1 := by
  rw [crc8Rounds_one_zero, crc8Rounds_one, BitVec.ushiftRight_xor_distrib]
  split
  · ac_rfl
  · rfl

/-- The rounds read the register and the byte only through their exclusive or, up to the bits of the byte not yet shifted
out. -/
theorem crc8Rounds_xor (k : Nat) (crc b : Byte) : crc8Rounds k (crc ^^^ b) 0 = crc8Rounds k crc b ^^^ b >>> k := by
  induction k generalizing crc b with
  | zero => simp [crc8Rounds]
  | succ k ih =>
    calc crc8Rounds (k + 1) (crc ^^^ b) 0
        = crc8Rounds k (crc8Rounds 1 crc b ^^^ b >>> 1) 0 := by rw [crc8Rounds_succ_zero, crc8Rounds_one_xor]
      _ = crc8Rounds k (crc8Rounds 1 crc b) (b >>> 1) ^^^ b >>> 1 >>> k := ih ..
      _ = crc8Rounds (k + 1) crc b ^^^ b >>> (k + 1) := by
          rw [← crc8Rounds_succ, ← BitVec.shiftRight_add, Nat.add_comm 1]

/-- Eight rounds shift the whole byte out (R130). -/
theorem crc8Update_eq_rounds_xor (crc b : Byte) : crc8Update crc b = crc8Rounds 8 (crc ^^^ b) 0 := by
  rw [crc8Rounds_xor, crc8Update, BitVec.ushiftRight_eq_zero (le_refl 8), BitVec.xor_zero]

/-- A round loses no bit: the one it shifts out comes back as the top bit of `0x8C`. -/
theorem crc8Rounds_one_eq_zero_iff (x : Byte) : crc8Rounds 1 x 0 = 0 ↔ x = 0 := by
  refine ⟨fun h => ?_, fun h => by rw [h]; rfl⟩
  rw [crc8Rounds_one_zero] at h
  split at h
  next hlow =>
    have htop : (x >>> 1 ^^^ 0x8C).getLsbD 7 = true := by simp
    rw [h] at htop
    cases htop
  next hlow =>
    have hhigh : x.toNat / 2 = 0 := by
      rw [← Nat.shiftRight_one, ← BitVec.toNat_ushiftRight, h]
      rfl
    have heven : x.toNat % 2 = 0 := by simpa [BitVec.getLsbD] using hlow
    exact BitVec.eq_of_toNat_eq (by simp; omega)

theorem crc8Rounds_eq_zero_iff (k : Nat) (x : Byte) : crc8Rounds k x 0 = 0 ↔ x = 0 := by
  induction k generalizing x with
  | zero => rfl
  | succ k ih => rw [crc8Rounds_succ_zero, ih, crc8Rounds_one_eq_zero_iff]

/-- The register becomes 0 by the byte that equals it and by no other. -/
theorem crc8Update_eq_zero_iff (crc b : Byte) : crc8Update crc b = 0 ↔ b = crc := by
  rw [crc8Update_eq_rounds_xor, crc8Rounds_eq_zero_iff, BitVec.ofNat_eq_ofNat, BitVec.xor_eq_zero_iff, eq_comm]

/-- Settles O10: the last byte is one more update of the register. -/
theorem crcResidueIsZeroExactly : Obligations.CrcResidueIsZeroExactly := by
  intro s c
  rw [crc8_snoc, crc8Update_eq_zero_iff]

/-! ### The deframer on a framer's bytes (R134 to R139) -/

section
variable (dst len h : Byte) (rbus sbus : BusId) (sid : Byte) (payload rest : List Byte)

/-- The framer's bytes in the order of the layout (R90). -/
theorem encodeFrame_eq_cons :
    encodeFrame dst h rbus sbus sid payload =
      dst :: BitVec.ofNat 8 (prefixLen h + payload.length + 4) :: h :: (framePrefix h rbus sbus sid ++ (payload ++
        [crc8 (frameBody dst h (framePrefix h rbus sbus sid ++ payload))])) := by
  simp [encodeFrame, frameBody]

/-- The address fields are read where the prefix puts them, whatever the length byte is and whatever follows: one case
for each of the four layouts (R134, R137). -/
theorem decodeInfo_framePrefix :
    decodeInfo (dst :: len :: h :: (framePrefix h rbus sbus sid ++ rest)) = frameInfo dst h rbus sbus sid := by
  cases hmode : modeBit h <;> cases hsender : senderInfoBit h <;>
    simp [decodeInfo, frameInfo, framePrefix, busIdAt, BusId.bytes, Config.broadcast, hmode, hsender]

/-- The payload starts behind the prefix and is as long as byte 1 says (R137). -/
theorem decodePayload_framePrefix (hlen : len.toNat = overhead h + payload.length + 1) :
    decodePayload (dst :: len :: h :: (framePrefix h rbus sbus sid ++ (payload ++ rest))) = payload := by
  have hdrop : (framePrefix h rbus sbus sid ++ (payload ++ rest)).drop (prefixLen h) = payload ++ rest :=
    List.drop_left' (framePrefix_length h rbus sbus sid)
  have hcount : len.toNat - overhead h - 1 = payload.length := by omega
  calc decodePayload (dst :: len :: h :: (framePrefix h rbus sbus sid ++ (payload ++ rest)))
      = ((dst :: len :: h :: (framePrefix h rbus sbus sid ++ (payload ++ rest))).drop (prefixLen h + 3)).take
          (len.toNat - overhead h - 1) := by rw [prefixLen_add]; rfl
    _ = (payload ++ rest).take payload.length := by
          rw [hcount, List.drop_succ_cons, List.drop_succ_cons, List.drop_succ_cons, hdrop]
    _ = payload := List.take_left

variable {h payload} in
/-- Below 256 the length byte holds the length of the whole frame (R136). -/
theorem lengthByte_toNat (hlt : overhead h + payload.length + 1 < 256) :
    (BitVec.ofNat 8 (prefixLen h + payload.length + 4)).toNat = overhead h + payload.length + 1 := by
  have hsum : prefixLen h + payload.length + 4 = overhead h + payload.length + 1 := by
    rw [← prefixLen_add h]
    omega
  rw [hsum, BitVec.toNat_ofNat, Nat.mod_eq_of_lt hlt]

end

/-- Settles O12: a frame below `PACKET_MAX_LENGTH` has a length that byte 1 can hold, and the deframer reads each part where the
framer put it. -/
theorem frameDecodesToWhatWasEncoded : Obligations.FrameDecodesToWhatWasEncoded := by
  intro dst h rbus sbus sid payload packetMaxLength hfits hmax
  have hlen := lengthByte_toNat (h := h) (payload := payload) (by omega)
  refine ⟨encodeFrame_length .., ?_⟩
  rw [encodeFrame_eq_cons]
  exact ⟨hlen, decodeInfo_framePrefix .., decodePayload_framePrefix (hlen := hlen) ..⟩

end Sys2Proof.Machine
end

section
/-! Enqueuing and removing (41_queue_scheduler.md R150 to R157): the header chosen, the two failures, the slot taken and the
slot freed. -/

namespace Sys2Proof.Machine

/-! ### The header (R151) -/

/-- The three named bits come back out of the header, one check for each of the eight configurations (R93, R151). -/
theorem headerOfBits_bits (mode senderInfo ackRequest : Bool) :
    modeBit (headerOfBits mode senderInfo ackRequest) = mode ∧
      senderInfoBit (headerOfBits mode senderInfo ackRequest) = senderInfo ∧
      ackRequestBit (headerOfBits mode senderInfo ackRequest) = ackRequest := by
  revert mode senderInfo ackRequest
  decide

/-- Settles O13: the header chosen is put together from the three registers. -/
theorem chosenHeaderFollowsConfiguration : Obligations.ChosenHeaderFollowsConfiguration := by
  intro s h
  obtain ⟨hmode, hsender, hack⟩ := headerOfBits_bits s.shared s.senderInfoEn s.acknowledge
  exact ⟨rfl, hmode, hsender, hack, of_decide_eq_true (headerOfBits_reservedBitsClear s.shared s.senderInfoEn s.acknowledge)⟩

/-- Legal header operands: the enqueue with the header used, chosen or given (R151, 30_encoding.md R114, R122). -/
theorem exec_enqueue_of_headerUsed {s : State} {hsel header h : Byte} (hused : HeaderUsed s hsel header h) :
    ∃ explicit, chooseHeader explicit s = h ∧
      ∀ dst rbus timing payload, exec (.enqueue dst rbus timing hsel header payload) s =
        .next (enqueueCommand dst rbus timing explicit payload s) := by
  rcases hused with ⟨rfl, rfl⟩ | ⟨rfl, hclear, rfl⟩
  · exact ⟨none, rfl, fun dst rbus timing payload => enqueueOperands_auto dst rbus timing payload s header⟩
  · exact ⟨some h, rfl, fun dst rbus timing payload => enqueueOperands_explicit dst rbus timing payload s hclear⟩

/-! ### ENQUEUE (R150 to R156) -/

/-- Settles O14: whichever way the header was got, the enqueue takes the lowest free slot. -/
theorem enqueueTakesTheLowestFreeSlot : Obligations.EnqueueTakesTheLowestFreeSlot := by
  intro s dst rbus timing hsel header h payload i hused hfits hfree
  obtain ⟨explicit, rfl, hexec⟩ := exec_enqueue_of_headerUsed hused
  rw [hexec, enqueueCommand_of_lowestFree dst rbus timing hfits hfree]

/-- A command whose `ENQ` answered no slot: the event, then `ENQ_FAIL`, and nothing else (R156). -/
theorem enqueueCommand_of_failed {s : State} {dst : Byte} {rbus : BusId} {timing : Word} {explicit : Option Byte}
    {payload : List Byte} {kind : ErrorKind} {data : Half}
    (h : enq dst rbus timing explicit payload s = (none, raiseError kind data s)) :
    enqueueCommand dst rbus timing explicit payload s =
      { s with trace := s.trace ++ [.errevt kind data, .response .enqFail] } := by
  rw [enqueueCommand, h]
  exact eq_of_own_eq rfl (List.append_assoc ..) rfl

/-- Settles O16: the length check comes before the queue is looked at (R152). -/
theorem enqueueTooLongFails : Obligations.EnqueueTooLongFails := by
  intro s dst rbus timing hsel header h payload hused hlong
  obtain ⟨explicit, rfl, hexec⟩ := exec_enqueue_of_headerUsed hused
  rw [hexec, enqueueCommand_of_failed (if_pos hlong), frameLength]

/-- Settles O17: of the three ends of `ENQ`, the frame's length excludes the first and the full queue the last. -/
theorem enqueueOnAFullQueueFails : Obligations.EnqueueOnAFullQueueFails := by
  intro s dst rbus timing hsel header h payload hused hfits hpending
  obtain ⟨explicit, rfl, hexec⟩ := exec_enqueue_of_headerUsed hused
  have hfull : freeSlot s = none := freeSlot_none.2 hpending
  rcases enq_cases dst rbus timing explicit payload s with ⟨hlong, _⟩ | ⟨_, _, henq⟩ | ⟨i, _, hfree, _⟩
  · exact absurd hfits (Nat.not_lt.2 hlong)
  · rw [hexec, enqueueCommand_of_failed henq]
  · rw [hfull] at hfree
    cases hfree

/-! ### REMOVE (R157) -/

/-- Writing back what a slot holds changes nothing. -/
theorem setSlot_slotAt (i : Nat) (s : State) : setSlot i (slotAt s i) s = s := by
  have hset : s.queue.set i (slotAt s i) = s.queue := by
    by_cases hi : i < s.queue.length
    · simp [slotAt, List.getD_eq_getElem?_getD, hi]
    · exact List.set_eq_of_length_le (Nat.not_lt.1 hi)
  rw [setSlot, hset]

theorem execRemove_inRange {s : State} {slot : Byte} (h : slot.toNat < s.queue.length) :
    execRemove slot s = .next (respond .void (removeSlot slot.toNat s)) :=
  if_pos h

/-- Settles O18: a free slot already holds what `REMOVE` writes. -/
theorem removeFreesTheSlot : Obligations.RemoveFreesTheSlot := by
  intro s slot
  refine ⟨fun hin => execRemove_inRange hin, fun hin hempty => ?_, fun hout => execRemove_outOfRange hout⟩
  have hkept : removeSlot slot.toNat s = s := by rw [removeSlot, ← hempty, setSlot_slotAt]
  have hexec : exec (.remove slot) s = .next (respond .void (removeSlot slot.toNat s)) := execRemove_inRange hin
  rw [hexec, hkept]
  rfl

end Sys2Proof.Machine
end

section
/-! The scheduler (41_queue_scheduler.md R160 to R172): the two tests on a slot, what each outcome leaves in it, and the run of
`TICK` over the slots. -/

namespace Sys2Proof.Machine

/-! ### The tests on a slot (R162, R166) -/

/-- Settles O22: the difference of 64-bit values is taken modulo 2^64, and the bound is met at the greatest timing and attempts. -/
theorem dueTest : Obligations.DueTest := by
  intro p t
  have hcube : p.attempts.toNat ^ 3 = p.attempts.toNat * p.attempts.toNat * p.attempts.toNat := pow_three' _
  have helapsed : elapsed t p.registration = (t.toNat + 2 ^ 64 - p.registration.toNat) % 2 ^ 64 := by
    have hreg := p.registration.isLt
    rw [elapsed, BitVec.toNat_sub]
    congr 1
    omega
  refine ⟨by rw [due, decide_eq_true_iff, hcube, helapsed], ?_⟩
  have htiming := p.timing.isLt
  have hattempts : p.attempts.toNat ≤ 255 := Nat.le_of_lt_succ p.attempts.isLt
  have hbound : p.attempts.toNat ^ 3 ≤ 255 ^ 3 := Nat.pow_le_pow_left hattempts 3
  omega

/-- Settles O24: behind the prefix the content is the payload, so the test asks for its length 1 and its first byte. -/
theorem acquireProbeIsTheSingleByte : Obligations.AcquireProbeIsTheSingleByte := by
  intro p rbus sbus sid payload hcontent hlength
  have hlen : p.length.toNat = prefixLen p.header + payload.length := by
    rw [hlength, hcontent, List.length_append, framePrefix_length]
  have hfirst : p.content[prefixLen p.header]? = payload[0]? := by
    rw [hcontent, List.getElem?_append_right (by simp), framePrefix_length, Nat.sub_self]
  rw [isAcquireProbe, Bool.and_eq_true_iff, decide_eq_true_iff, decide_eq_true_iff, hlen, hfirst, Nat.add_left_cancel_iff]
  match payload with
  | [] => simp
  | [b] => simp [Config.acquireIdByte]
  | _ :: _ :: _ => simp

/-! ### What an outcome leaves in the slot (R163 to R168) -/

/-- Of two writes to a slot the second counts. -/
theorem setSlot_setSlot (i : Nat) (p q : Slot) (s : State) : setSlot i q (setSlot i p s) = setSlot i q s := by
  simp [setSlot]

/-- A slot after a failed transmission: `FAIL` stored and the attempt counted, modulo 256 (R163, R165). -/
def failedSlot (p : Slot) : Slot := { p with state := .fail, attempts := p.attempts + 1 }

section
variable {i : Nat} {p : Slot} {u : State}

theorem freedAtEnd_iff : freedAtEnd p u = true ↔ p.timing = 0 ∧ u.autoDelete = true := by
  rw [freedAtEnd, Bool.and_eq_true_iff, decide_eq_true_iff]

theorem not_freedAtEnd (hkept : p.timing ≠ 0 ∨ u.autoDelete = false) : ¬ freedAtEnd p u = true := by
  rw [freedAtEnd_iff]
  rintro ⟨htiming, hauto⟩
  rcases hkept with hrepeat | hoff
  · exact hrepeat htiming
  · exact ne_true_of_eq_false hoff hauto

/-- The outcome is stored in the slot's state and nowhere else (R163). -/
theorem slotAt_storeOutcome (o : Outcome) (hi : i < u.queue.length) (hp : slotAt u i = p) :
    slotAt (storeOutcome i o u) i = { p with state := slotStateOfOutcome o } := by
  rw [storeOutcome, slotAt_setSlot_same u _ hi, hp]

/-- An acknowledged one-shot packet is freed (R164). -/
theorem handleOutcome_ack_freed (hi : i < u.queue.length) (hp : slotAt u i = p) (htiming : p.timing = 0)
    (hauto : u.autoDelete = true) : handleOutcome i .ack u = setSlot i Slot.empty u := by
  have hfreed : freedAtEnd (slotAt (storeOutcome i .ack u) i) (storeOutcome i .ack u) = true := by
    rw [slotAt_storeOutcome .ack hi hp]
    exact freedAtEnd_iff.2 ⟨htiming, hauto⟩
  exact (if_pos hfreed).trans (setSlot_setSlot ..)

/-- Any other acknowledged packet is re-armed with a fresh clock value (R164). -/
theorem handleOutcome_ack_rearmed (hi : i < u.queue.length) (hp : slotAt u i = p)
    (hkept : p.timing ≠ 0 ∨ u.autoDelete = false) :
    handleOutcome i .ack u =
      setSlot i { p with state := .toBeSent, attempts := 0, registration := (now u).1 } (now u).2 := by
  have hslot := slotAt_storeOutcome .ack hi hp
  have hfreed : ¬ freedAtEnd (slotAt (storeOutcome i .ack u) i) (storeOutcome i .ack u) = true := by
    rw [hslot]
    exact not_freedAtEnd hkept
  refine (if_neg hfreed).trans ?_
  rw [hslot]
  exact setSlot_setSlot i _ _ (now u).2

/-- After a failed transmission the count decides (R165). -/
theorem handleOutcome_fail (hi : i < u.queue.length) (hp : slotAt u i = p) :
    handleOutcome i .fail u =
      if 125 < (p.attempts + 1).toNat then handleExhausted i (setSlot i (failedSlot p) u) else setSlot i (failedSlot p) u := by
  have hcounted : countAttempt i (storeOutcome i .fail u) = setSlot i (failedSlot p) u := by
    rw [countAttempt, slotAt_storeOutcome .fail hi hp]
    exact setSlot_setSlot ..
  change handleFail i (storeOutcome i .fail u) = _
  rw [handleFail, hcounted, slotAt_setSlot_same u _ hi]
  rfl

/-- An acquisition probe ends in the adoption of the id it probed (R166). -/
theorem handleExhausted_probe (hp : slotAt u i = p) (hprobe : isAcquireProbe p = true) :
    handleExhausted i u = setSlot i Slot.empty { u with deviceId := p.destination } := by
  subst hp
  exact if_pos hprobe

/-- Any other packet loses its connection (R167). -/
theorem handleExhausted_lost (hp : slotAt u i = p) (hprobe : isAcquireProbe p = false) :
    handleExhausted i u = afterConnectionLost i (raiseError .connectionLost (p.destination.setWidth 16) u) := by
  subst hp
  exact if_neg (ne_true_of_eq_false hprobe)

theorem afterConnectionLost_freed (hp : slotAt u i = p) (htiming : p.timing = 0) (hauto : u.autoDelete = true) :
    afterConnectionLost i u = setSlot i Slot.empty u := by
  subst hp
  exact if_pos (freedAtEnd_iff.2 ⟨htiming, hauto⟩)

theorem afterConnectionLost_repeating (hp : slotAt u i = p) (htiming : p.timing ≠ 0) :
    afterConnectionLost i u = setSlot i { p with attempts := 0 } u := by
  subst hp
  exact (if_neg (not_freedAtEnd (.inl htiming))).trans (if_pos htiming)

theorem afterConnectionLost_kept (hp : slotAt u i = p) (htiming : p.timing = 0) (hauto : u.autoDelete = false) :
    afterConnectionLost i u = u := by
  subst hp
  exact (if_neg (not_freedAtEnd (.inr hauto))).trans (if_neg (not_not.2 htiming))

/-- A packet that is no probe and has used up its attempts: the state before what R168 does with its slot. -/
theorem handleOutcome_fail_lost (hi : i < u.queue.length) (hp : slotAt u i = p) (hcount : 125 < (p.attempts + 1).toNat)
    (hprobe : isAcquireProbe p = false) :
    handleOutcome i .fail u =
      afterConnectionLost i
        (setSlot i (failedSlot p) (raiseError .connectionLost (p.destination.setWidth 16) u)) := by
  rw [handleOutcome_fail hi hp, if_pos hcount]
  exact handleExhausted_lost (p := failedSlot p) (slotAt_setSlot_same u _ hi) hprobe

end

/-! ### One turn (R160, R161, R172) -/

/-- A slot that is due transmits, and its outcome is handled. -/
theorem tickSlot_of_due {s u : State} {i : Nat} {o : Outcome} (hpend : (slotAt s i).state ≠ .free)
    (hdue : due (slotAt s i) (now s).1 = true) (htx : transmitSlot i (now s).2 = (o, u)) :
    tickSlot i s = handleOutcome i o u := by
  rcases tickSlot_cases i s with ⟨hfree, _⟩ | ⟨_, hnotDue, _⟩ | ⟨_, _, h⟩
  · exact absurd hfree hpend
  · rw [hnotDue] at hdue
    cases hdue
  · rw [h, htx]

theorem tickSlot_of_not_due {s : State} {i : Nat} (hpend : (slotAt s i).state ≠ .free)
    (hdue : due (slotAt s i) (now s).1 = false) : tickSlot i s = (now s).2 := by
  rcases tickSlot_cases i s with ⟨hfree, _⟩ | ⟨_, _, h⟩ | ⟨_, hisDue, _⟩
  · exact absurd hfree hpend
  · exact h
  · rw [hisDue] at hdue
    cases hdue

theorem tickSlot_of_free {s : State} {i : Nat} (hfree : (slotAt s i).state = .free) : tickSlot i s = s :=
  if_pos hfree

/-- Settles O23: the transmission writes no state of the block, so its outcome meets the slot and the queue that the turn
began with, and each row of the table is one equation of `handleOutcome`. -/
theorem slotTransitions : Obligations.SlotTransitions := by
  intro s i p o u hi hp hpend htx
  subst hp
  refine ⟨tickSlot_of_not_due hpend, fun hdue => ?_⟩
  have hown : u.own = s.own := by
    have h := (transmitSlot_own i (now s).2).trans (now_own s)
    rwa [htx] at h
  have hqueue : u.queue = s.queue := queue_of_own hown
  have hauto : u.autoDelete = s.autoDelete := autoDelete_of_own hown
  have hslot : slotAt u i = slotAt s i := slotAt_congr hqueue i
  have hiu : i < u.queue.length := hqueue ▸ hi
  have hfailed (k : ErrorKind) (d : Half) :
      slotAt (setSlot i (failedSlot (slotAt s i)) (raiseError k d u)) i = failedSlot (slotAt s i) :=
    slotAt_setSlot_same (raiseError k d u) _ hiu
  rw [tickSlot_of_due hpend hdue htx, ← hqueue, ← hauto]
  refine ⟨?busy, ?nak, ?ackFreed, ?ackRearmed, ?failCounted, ?probe, ?lostFreed, ?lostRepeating, ?lostKept⟩
  case busy => rintro rfl; rw [← hslot]; rfl
  case nak => rintro rfl; rw [← hslot]; rfl
  case ackFreed =>
    rintro rfl htiming hdel
    exact handleOutcome_ack_freed hiu hslot htiming hdel
  case ackRearmed =>
    rintro rfl hkept
    exact handleOutcome_ack_rearmed hiu hslot hkept
  case failCounted =>
    rintro rfl hcount
    exact (handleOutcome_fail hiu hslot).trans (if_neg (Nat.not_lt.2 hcount))
  case probe =>
    rintro rfl hcount hprobe
    have hprobe' : isAcquireProbe (failedSlot (slotAt s i)) = true := hprobe
    rw [handleOutcome_fail hiu hslot, if_pos hcount, handleExhausted_probe (slotAt_setSlot_same u _ hiu) hprobe']
    exact setSlot_setSlot i _ _ { u with deviceId := (slotAt s i).destination }
  case lostFreed =>
    rintro rfl hcount hprobe htiming hdel
    rw [handleOutcome_fail_lost hiu hslot hcount hprobe, afterConnectionLost_freed (hfailed ..) htiming hdel]
    exact setSlot_setSlot ..
  case lostRepeating =>
    rintro rfl hcount hprobe htiming
    rw [handleOutcome_fail_lost hiu hslot hcount hprobe, afterConnectionLost_repeating (hfailed ..) htiming]
    exact setSlot_setSlot ..
  case lostKept =>
    rintro rfl hcount hprobe htiming hdel
    rw [handleOutcome_fail_lost hiu hslot hcount hprobe, afterConnectionLost_kept (hfailed ..) htiming hdel]
    rfl

/-! ### The run over the slots (R160, R161) -/

/-- The turns of the slots of a list, in its order. -/
def tickSlots (l : List Nat) (s : State) : State := l.foldl (fun u i => tickSlot i u) s

theorem tick_eq_tickSlots (s : State) : tick s = tickSlots (List.range s.queue.length) s := rfl

theorem tickSlots_append (l l' : List Nat) (s : State) : tickSlots (l ++ l') s = tickSlots l' (tickSlots l s) :=
  List.foldl_append

/-- The run can be split at any slot: the slots below it, then those from it on. -/
theorem tick_split (s : State) {k : Nat} (hk : k ≤ s.queue.length) :
    tick s = tickSlots (List.range' k (s.queue.length - k)) (tickSlots (List.range k) s) := by
  have hrange : List.range s.queue.length = List.range k ++ List.range' k (s.queue.length - k) := by
    have happend := List.range'_append_1 (s := 0) (m := k) (n := s.queue.length - k)
    rw [Nat.zero_add, Nat.add_sub_cancel' hk] at happend
    rw [List.range_eq_range', List.range_eq_range', happend]
  rw [tick_eq_tickSlots, hrange, tickSlots_append]

/-- Free slots are passed over: no clock read, no transaction (R160). -/
theorem tickSlots_of_free {l : List Nat} {s : State} (hfree : ∀ j ∈ l, (slotAt s j).state = .free) : tickSlots l s = s := by
  induction l with
  | nil => rfl
  | cons j l ih =>
    have hj : tickSlot j s = s := tickSlot_of_free (hfree j List.mem_cons_self)
    have htail : tickSlots l s = s := ih fun k hk => hfree k (List.mem_cons_of_mem j hk)
    change tickSlots l (tickSlot j s) = s
    rw [hj, htail]

/-- With one slot pending at most, the run is the turn of that slot. -/
theorem tick_of_othersFree {s : State} {i : Nat} (hi : i < s.queue.length)
    (hothers : ∀ j, j < s.queue.length → j ≠ i → (slotAt s j).state = .free) : tick s = tickSlot i s := by
  have hbelow : tickSlots (List.range i) s = s := tickSlots_of_free fun j hj => by
    have hlt : j < i := List.mem_range.1 hj
    exact hothers j (hlt.trans hi) hlt.ne
  have habove : tickSlots (List.range' (i + 1) (s.queue.length - i - 1)) (tickSlot i s) = tickSlot i s :=
    tickSlots_of_free fun j hj => by
      obtain ⟨hle, hlt⟩ := List.mem_range'_1.1 hj
      rw [tickSlot_other s (by omega)]
      exact hothers j (by omega) (by omega)
  have hcount : s.queue.length - i = s.queue.length - i - 1 + 1 := by omega
  rw [tick_split s hi.le, hbelow, hcount, List.range'_succ]
  exact habove

/-- `UPDATE` and its spelling `TICK`: the run, then `VOID` (R160, 30_encoding.md R126). -/
theorem exec_of_tick_eq {s t : State} {i : Instr} (hi : i = .update ∨ i = .tick) (h : tick s = t) :
    exec i s = .next (respond .void t) := by
  subst h
  rcases hi with rfl | rfl <;> rfl

/-- Settles O27: the run over a range of slots splits at any index, and each turn writes the queue and `DEVICE_ID` only. -/
theorem updateServesSlotsInIndexOrder : Obligations.UpdateServesSlotsInIndexOrder := by
  intro s k hk
  refine ⟨exec_of_tick_eq (.inl rfl) (tick_split s hk), fun t ht => ?_⟩
  cases ht
  exact ⟨tick_queueWrite s, tick_queue_length s⟩

/-- Settles O25: every turn is that of a free slot. -/
theorem updateWithNothingPending : Obligations.UpdateWithNothingPending := by
  intro s hfree
  have htick : tick s = s := tickSlots_of_free fun j hj => hfree _ (slotAt_mem (List.mem_range.1 hj))
  exact ⟨exec_of_tick_eq (.inl rfl) htick, exec_of_tick_eq (.inr rfl) htick⟩

/-! ### A packet delivered (scenario S1) -/

/-- The next supplied carrier sense is the answer (20_memory.md R67). -/
theorem canStart_of_supplied {s : State} {b : Bool} {rest : List Bool} (h : s.env.senseIn = b :: rest) :
    canStart s = (b, { s with env := { s.env with senseIn := rest }, trace := s.trace ++ [.canStart b] }) := by
  rw [canStart, h]
  rfl

/-- The next supplied response is the answer (20_memory.md R67). -/
theorem receiveResponse_of_supplied {s : State} {v : Half} {rest : List Half} (h : s.env.respIn = v :: rest) :
    receiveResponse s = (v, { s with env := { s.env with respIn := rest }, trace := s.trace ++ [.receiveResponse v] }) := by
  rw [receiveResponse, h]
  rfl

/-- A supplied `ACK` ends the acknowledgment wait without a delay (42_transmit.md R186, R187). -/
theorem awaitResponse_of_ack {s : State} {rest : List Half} (h : s.env.respIn = 6 :: rest) :
    awaitResponse s =
      (.ack, { s with env := { s.env with respIn := rest }, trace := s.trace ++ [.receiveResponse 6] }) := by
  rw [awaitResponse, receiveResponse_of_supplied h]
  rfl

/-- Time passes without touching the answers supplied to the strategy port (20_memory.md R71). -/
theorem passTime_strategy (e : Env) : (passTime e).senseIn = e.senseIn ∧ (passTime e).respIn = e.respIn := by
  unfold passTime
  split <;> exact ⟨rfl, rfl⟩

theorem now_value (s : State) : (now s).1 = clockValue (passTime s.env) := rfl

theorem slotAt_now (s : State) (i : Nat) : slotAt (now s).2 i = slotAt s i := slotAt_congr (now_queue s) i

/-- A frame sent on an idle medium and acknowledged: one carrier sense, the frame, one response (42_transmit.md R181 to R187). -/
theorem transmit_acknowledged {s : State} {dst : Byte} {senses : List Bool} {answers : List Half} (len h : Byte)
    (body : List Byte) (hmode : s.commMode = .halfDuplex) (hack : s.acknowledge = true) (hdst : dst ≠ 0)
    (hsense : s.env.senseIn = true :: senses) (hresp : s.env.respIn = 6 :: answers) :
    transmit dst len h body s =
      (.ack, { s with
        env := { s.env with senseIn := senses, respIn := answers }
        trace := s.trace ++ [.canStart true] ++ (frameBytes dst (len + 4) h body).map Entry.sendByte ++
          [.receiveResponse 6] }) := by
  have hcan := canStart_of_supplied hsense
  have hidle : (canStart s).1 = true := congrArg Prod.fst hcan
  rw [transmit_await dst len h body hmode hidle hack hdst, hcan]
  exact awaitResponse_of_ack hresp

/-- Settles O26: the one pending slot's turn is the whole run, and its transmission is acknowledged. -/
theorem updateDeliversAnAcknowledgedPacket : Obligations.UpdateDeliversAnAcknowledgedPacket := by
  intro s i senses answers hi hpend hothers hmode hack hauto htiming hdst hlen hdue hsense hresp u hu
  obtain ⟨hpassSense, hpassResp⟩ := passTime_strategy s.env
  have htx := (transmitSlot_of_length_eq (s := (now s).2) hlen).trans
    (transmit_acknowledged _ _ _ hmode hack hdst (hpassSense.trans hsense) (hpassResp.trans hresp))
  have hturn := (tickSlot_of_due hpend hdue htx).trans (handleOutcome_ack_freed hi rfl htiming hauto)
  rw [exec_of_tick_eq hu ((tick_of_othersFree hi hothers).trans hturn)]
  refine congrArg _ (eq_of_own_eq rfl ?_ rfl)
  simp [now_value, slotAt_now]

end Sys2Proof.Machine
end

section
/-! The transmit engine (42_transmit.md): the classification of the response, the frame that `TX` puts on the wire, and the
response symbols as rows of their own (30_encoding.md R99). -/

namespace Sys2Proof.Machine

/-! ### The acknowledgment wait (R186, R187) -/

section
variable {s : State} {o : Outcome}

/-- A response that asks for no delay ends the wait (R187). -/
theorem awaitResponse_of_immediate (hr : classifyResponse (receiveResponse s).1 = (o, false)) :
    awaitResponse s = (o, (receiveResponse s).2) := by
  simp [awaitResponse, hr]

/-- A response that asks for a delay is followed by one draw and one delay of that length (R187). -/
theorem awaitResponse_of_delayed (hr : classifyResponse (receiveResponse s).1 = (o, true)) :
    awaitResponse s = (o, delay (random 16 (receiveResponse s).2).1 (random 16 (receiveResponse s).2).2) := by
  simp [awaitResponse, hr, Config.collisionMaxDelay]

end

/-- The last row of the classification: any value but the three named ones (R187). -/
theorem classifyResponse_garbled {r : Half} (hack : r ≠ 6) (hfail : r ≠ Config.failCode) (hnak : r ≠ 21) :
    classifyResponse r = (.fail, true) := by
  rw [classifyResponse, if_neg hack, if_neg hfail, if_neg hnak]

/-- The random delay is 0 to 15 µs (R187). -/
theorem random_collisionDelay_le (s : State) : (random 16 s).1 ≤ 15 := Nat.le_of_lt_succ (random_lt (by decide) s)

/-- Settles O20: one row of the classification for each of the four clauses, then the bound of the draw. -/
theorem responseClassification : Obligations.ResponseClassification := by
  intro s
  refine ⟨fun hr => awaitResponse_of_immediate ?ack, fun hr => awaitResponse_of_immediate ?fail,
    fun hr => awaitResponse_of_delayed ?nak, fun hack hfail hnak => awaitResponse_of_delayed ?garbled,
    random_collisionDelay_le _, random_trace .., delay_trace⟩
  case ack => rw [hr]; rfl
  case fail => rw [hr]; rfl
  case nak => rw [hr]; rfl
  case garbled => exact classifyResponse_garbled hack hfail hnak

/-! ### The frame on the wire (R182 to R184) -/

/-- The bytes the engine sends for a prefix and a payload are those of `ENCODE` (R136, R182 to R184, 40_codec.md R135). -/
theorem frameBytes_eq_encodeFrame {len h sid : Byte} {rbus sbus : BusId} {payload content : List Byte} (dst : Byte)
    (hcontent : content = framePrefix h rbus sbus sid ++ payload) (hlen : len.toNat = content.length) :
    frameBytes dst (len + 4) h content = encodeFrame dst h rbus sbus sid payload := by
  have hlenByte : len = BitVec.ofNat 8 content.length := by rw [← hlen, BitVec.ofNat_toNat, BitVec.setWidth_eq]
  rw [hlenByte, frameBytes_eq_frameBody, hcontent]
  rfl

/-- Settles O21: the slot's content is sent as `ENCODE`'s bytes, in each of the engine's four ways through. -/
theorem transmitPutsTheEncodedFrameOnTheWire : Obligations.TransmitPutsTheEncodedFrameOnTheWire := by
  intro s i rbus sbus sid payload hcontent hlen
  rw [transmitSlot_of_length_eq hlen, ← frameBytes_eq_encodeFrame _ hcontent hlen]
  exact ⟨transmit_simplex _ _ _ _, transmit_busy _ _ _ _, transmit_noAck _ _ _ _, transmit_await _ _ _ _⟩

/-! ### The response symbols (30_encoding.md R99; log 13) -/

/-- An `ACK` delivered is the response read and ends the wait at once; the answers supplied after it are as before. -/
theorem awaitResponse_ackSymbol (s : State) :
    awaitResponse (deliverSymbol Config.ackSymbol s) = (.ack, s.emit (.receiveResponse 6)) :=
  awaitResponse_of_immediate rfl

/-- A `NAK` delivered is the response read, and the random delay follows. -/
theorem awaitResponse_nakSymbol (s : State) :
    awaitResponse (deliverSymbol Config.nakSymbol s) =
      (.nak, delay (random 16 (s.emit (.receiveResponse 21))).1 (random 16 (s.emit (.receiveResponse 21))).2) :=
  awaitResponse_of_delayed rfl

/-- Settles O49: sent, a symbol is one `emit`; received, it is the acknowledgment wait on the symbol. -/
theorem symbolRows : Obligations.SymbolRows := by
  intro s
  have hack : exec (.ack .received) s = .next (awaitResponse (deliverSymbol Config.ackSymbol s)).2 := rfl
  have hnak : exec (.nak .received) s = .next (awaitResponse (deliverSymbol Config.nakSymbol s)).2 := rfl
  rw [awaitResponse_ackSymbol] at hack
  rw [awaitResponse_nakSymbol] at hnak
  exact ⟨rfl, rfl, hack, (random 16 (s.emit (.receiveResponse 21))).1, _, hnak, random_collisionDelay_le _, by simp, by simp⟩

end Sys2Proof.Machine
end

section
/-! The receive engine (43_receive.md): what a pass reads and stores, the four ends it can come to, and the commands that make
passes. -/

namespace Sys2Proof.Machine

/-- `RECEIVE` is one pass, and answers its outcome (R200). -/
theorem exec_receive {s t : State} {o : Outcome} (hpass : receive1 s = (o, t)) :
    exec .receive s = .next (respond (.outcome o) t) := by
  have hexec : exec .receive s = .next (respond (.outcome (receive1 s).1) (receive1 s).2) := rfl
  rw [hexec, hpass]

/-! ### The bytes a pass stores (R201, R208) -/

/-- A byte sequence written from index 0 on. -/
def storeBytes (bs : List Byte) (m : Memory) : Memory := bs.zipIdx.foldl (fun m p => m.write p.2 p.1) m

theorem storeBytes_snoc (bs : List Byte) (b : Byte) (m : Memory) :
    storeBytes (bs ++ [b]) m = (storeBytes bs m).write bs.length b := by
  simp [storeBytes, List.zipIdx_append]

/-- What was written is read back, and every index beyond it is as it was. -/
theorem read_storeBytes (bs : List Byte) (m : Memory) (j : Nat) :
    (storeBytes bs m).read j = if j < bs.length then bs[j]? else m.read j := by
  induction bs using List.reverseRecOn with
  | nil => rfl
  | append_singleton bs b ih =>
    rw [storeBytes_snoc, List.length_append, List.length_singleton]
    rcases Nat.lt_trichotomy j bs.length with hlt | rfl | hgt
    · rw [read_write_other _ _ (by omega), ih, if_pos hlt, if_pos (by omega), List.getElem?_append_left hlt]
    · simp
    · rw [read_write_other _ _ (by omega), ih, if_neg (by omega), if_neg (by omega)]

/-- The trace entries of bytes read one after the other. -/
def byteReads (bs : List Byte) : List Entry := bs.map fun b => Entry.receiveByte (some b)

/-- `s` after the first reads of a pass were answered with the bytes `bs`, and the outside is `e`. -/
def State.afterReading (bs : List Byte) (e : Env) (s : State) : State :=
  { s with rxbuf := storeBytes bs s.rxbuf, env := e, trace := s.trace ++ byteReads bs }

theorem afterReading_nil (s : State) : s.afterReading [] s.env = s :=
  eq_of_own_eq rfl (List.append_nil _) rfl

theorem storeRx_afterReading (bs : List Byte) (b : Byte) (e e' : Env) (s : State) :
    storeRx bs.length b ({ s.afterReading bs e with env := e' }.emit (.receiveByte (some b))) =
      s.afterReading (bs ++ [b]) e' := by
  simp [storeRx, State.emit, State.afterReading, storeBytes_snoc, byteReads]

/-- One `ReceiveByte` changes the outside and the trace only. -/
theorem receiveByte_eq (s : State) :
    (receiveByte s).2 = { s with env := (receiveByte s).2.env }.emit (.receiveByte (receiveByte s).1) :=
  eq_of_own_eq (receiveByte_own s) (receiveByte_trace s) rfl

/-- The next read of a pass fails, or gives the next byte of the frame. -/
theorem receiveInto_afterReading {i : Nat} {bs : List Byte} (hi : i = bs.length) (e : Env) (s : State) :
    (∃ e', receiveInto i (s.afterReading bs e) = (none, (s.afterReading bs e').emit (.receiveByte none))) ∨
      ∃ b e', receiveInto i (s.afterReading bs e) = (some b, s.afterReading (bs ++ [b]) e') := by
  subst hi
  rcases receiveInto_cases bs.length (s.afterReading bs e) with ⟨hread, hinto⟩ | ⟨b, hread, hinto⟩ <;>
    rw [hinto, receiveByte_eq, hread]
  · exact .inl ⟨_, rfl⟩
  · exact .inr ⟨b, _, by rw [storeRx_afterReading]⟩

/-- What bytes 0 to 2 of a frame have in common: the byte is read, and a test on it ends the pass with `o` or lets it go on
(R201 to R205). -/
def readThen (i : Nat) (o : Outcome) (rejects : Byte → State → Bool) (next : Byte → State → Outcome × State) (s : State) :
    Outcome × State :=
  match receiveInto i s with
  | (none, t) => (.fail, t)
  | (some b, t) => if rejects b t then (o, t) else next b t

theorem receive1_eq (s : State) : receive1 s = readThen 0 .busy rejectsReceiver receiveLength s := by
  unfold receive1 readThen
  rcases receiveInto 0 s with ⟨_ | b, t⟩ <;> rfl

theorem receiveLength_eq (dst : Byte) (s : State) :
    receiveLength dst s = readThen 1 .fail rejectsLength (receiveHeader dst) s := by
  unfold receiveLength readThen
  rcases receiveInto 1 s with ⟨_ | b, t⟩ <;> rfl

theorem receiveHeader_eq (dst len : Byte) (s : State) :
    receiveHeader dst len s = readThen 2 .busy rejectsHeader (receiveTail dst len) s := by
  unfold receiveHeader readThen
  rcases receiveInto 2 s with ⟨_ | b, t⟩ <;> rfl

/-! ### The end of a frame (R209 to R217) -/

/-- The trace entries of a response symbol: one where the guard holds, none otherwise (R212). -/
def symbolEntries (sym : Byte) (frame : List Byte) (s : State) : List Entry :=
  if ackGuard frame s then [.sendResponse sym] else []

theorem respondSymbol_eq (sym : Byte) (frame : List Byte) (s : State) :
    respondSymbol sym frame s = { s with trace := s.trace ++ symbolEntries sym frame s } := by
  unfold respondSymbol symbolEntries
  split
  · rfl
  · rw [List.append_nil]

/-- The event of an accepted frame: it points at the payload (R214, R217). -/
def acceptEvent (frame : List Byte) : Entry :=
  .rxevt (BitVec.ofNat 8 (overhead (frame.getD 2 0))) (BitVec.ofNat 8 (decodePayloadLen frame)) (decodeInfo frame)

theorem acceptFrame_eq (frame : List Byte) (s : State) :
    acceptFrame frame s = { s with
      lpi := decodeInfo frame
      lpiValid := true
      trace := s.trace ++ symbolEntries 6 frame s ++ [acceptEvent frame] } := by
  simp only [acceptFrame, respondSymbol_eq]
  rfl

/-! ### What a pass comes to (R201) -/

/-- The four ends of a pass that began in `s`: a filter or the length test stopped it, a read failed, or a whole frame was read
and accepted or refused. In each, `frame` is what was read. -/
inductive PassEnd (s : State) : Outcome × State → Prop where
  | stopped {o : Outcome} (ho : o = .busy ∨ o = .fail) (frame : List Byte) (e : Env) : PassEnd s (o, s.afterReading frame e)
  | readFailed (frame : List Byte) (e : Env) : PassEnd s (.fail, (s.afterReading frame e).emit (.receiveByte none))
  | accepted (frame : List Byte) (e : Env) : PassEnd s (.ack, acceptFrame frame (s.afterReading frame e))
  | refused (frame : List Byte) (e : Env) :
    PassEnd s (.nak, respondSymbol Config.nakSymbol frame (s.afterReading frame e))

theorem finishFrame_passEnd (frame : List Byte) (e : Env) (s : State) :
    PassEnd s (finishFrame frame (s.afterReading frame e)) := by
  rcases finishFrame_cases frame (s.afterReading frame e) with ⟨_, h⟩ | ⟨_, h⟩ <;> rw [h]
  · exact .accepted frame e
  · exact .refused frame e

/-- The bytes after the header: all of them are read and kept, or the reading ends as a pass may end. -/
theorem receiveRest_afterReading (n : Nat) {i : Nat} {frame : List Byte} (hi : i = frame.length) (h : Byte) (e : Env)
    (s : State) :
    (∃ whole e', receiveRest n i h frame (s.afterReading frame e) = (.whole whole, s.afterReading whole e')) ∨
      ∃ o t, receiveRest n i h frame (s.afterReading frame e) = (.stopped o, t) ∧ PassEnd s (o, t) := by
  induction n generalizing i frame e with
  | zero => exact .inl ⟨frame, e, rfl⟩
  | succ n ih =>
    rcases receiveInto_afterReading hi e s with ⟨e', hread⟩ | ⟨b, e', hread⟩ <;> simp only [receiveRest, hread]
    · exact .inr ⟨_, _, rfl, .readFailed frame e'⟩
    · split
      · exact .inr ⟨_, _, rfl, .stopped (.inl rfl) _ e'⟩
      · exact ih (by simp [hi]) e'

theorem receiveTail_of_whole {dst len h : Byte} {s t : State} {frame : List Byte}
    (hrest : receiveRest (len.toNat - 3) 3 h [dst, len, h] s = (.whole frame, t)) :
    receiveTail dst len h s = finishFrame frame t := by
  rw [receiveTail, hrest]

theorem receiveTail_of_stopped {dst len h : Byte} {s t : State} {o : Outcome}
    (hrest : receiveRest (len.toNat - 3) 3 h [dst, len, h] s = (.stopped o, t)) : receiveTail dst len h s = (o, t) := by
  rw [receiveTail, hrest]

theorem receiveTail_passEnd (dst len h : Byte) (e : Env) (s : State) :
    PassEnd s (receiveTail dst len h (s.afterReading [dst, len, h] e)) := by
  have hcases := receiveRest_afterReading (i := 3) (frame := [dst, len, h]) (len.toNat - 3) rfl h e s
  rcases hcases with ⟨whole, e', hrest⟩ | ⟨o, t, hrest, hend⟩
  · rw [receiveTail_of_whole hrest]
    exact finishFrame_passEnd whole e' s
  · rwa [receiveTail_of_stopped hrest]

theorem readThen_passEnd {i : Nat} {bs : List Byte} (hi : i = bs.length) {o : Outcome} (ho : o = .busy ∨ o = .fail)
    (rejects : Byte → State → Bool) {next : Byte → State → Outcome × State} (e : Env) {s : State}
    (hnext : ∀ b e', PassEnd s (next b (s.afterReading (bs ++ [b]) e'))) :
    PassEnd s (readThen i o rejects next (s.afterReading bs e)) := by
  unfold readThen
  rcases receiveInto_afterReading hi e s with ⟨e', hread⟩ | ⟨b, e', hread⟩ <;> rw [hread]
  · exact .readFailed bs e'
  · dsimp only
    split
    · exact .stopped ho _ e'
    · exact hnext b e'

/-- Every pass ends in one of the four ways: byte 0, byte 1, byte 2, then the rest of the frame. -/
theorem receive1_passEnd (s : State) : PassEnd s (receive1 s) := by
  have hheader (dst len : Byte) (e : Env) : PassEnd s (receiveHeader dst len (s.afterReading [dst, len] e)) := by
    rw [receiveHeader_eq]
    exact readThen_passEnd rfl (.inl rfl) _ e (receiveTail_passEnd dst len · · s)
  have hlength (dst : Byte) (e : Env) : PassEnd s (receiveLength dst (s.afterReading [dst] e)) := by
    rw [receiveLength_eq]
    exact readThen_passEnd rfl (.inr rfl) _ e (hheader dst)
  have hpass := readThen_passEnd (s := s) (i := 0) (bs := []) rfl (.inl rfl) rejectsReceiver s.env hlength
  rwa [afterReading_nil, ← receive1_eq] at hpass

/-! ### Settled from the four ends -/

@[simp] theorem received_byteReads (bs : List Byte) : received (byteReads bs) = bs := by
  simp [received, byteReads]

@[simp] theorem received_append (es es' : List Entry) : received (es ++ es') = received es ++ received es' :=
  List.filterMap_append

@[simp] theorem mem_byteReads {e : Entry} {bs : List Byte} : e ∈ byteReads bs ↔ ∃ b ∈ bs, Entry.receiveByte (some b) = e :=
  List.mem_map

@[simp] theorem mem_symbolEntries {e : Entry} {sym : Byte} {frame : List Byte} {s : State} :
    e ∈ symbolEntries sym frame s ↔ ackGuard frame s = true ∧ e = .sendResponse sym := by
  by_cases h : ackGuard frame s = true <;> simp [symbolEntries, h]

@[simp] theorem received_symbolEntries (sym : Byte) (frame : List Byte) (s : State) :
    received (symbolEntries sym frame s) = [] := by
  unfold symbolEntries
  split <;> rfl

/-- What each end of a pass adds to the trace: the reads of the frame, and what came after them. -/
theorem passEnd_trace {s : State} {r : Outcome × State} (h : PassEnd s r) :
    ∃ frame tail, r.2.rxbuf = storeBytes frame s.rxbuf ∧ r.2.trace = s.trace ++ (byteReads frame ++ tail) ∧
      (((r.1 = .busy ∨ r.1 = .fail) ∧ tail = []) ∨ (r.1 = .fail ∧ tail = [.receiveByte none]) ∨
        (r.1 = .ack ∧ tail = symbolEntries 6 frame s ++ [acceptEvent frame]) ∨
        (r.1 = .nak ∧ tail = symbolEntries 21 frame s)) := by
  cases h with
  | stopped ho frame e =>
    exact ⟨frame, [], rfl, by simp [State.afterReading], .inl ⟨ho, rfl⟩⟩
  | readFailed frame e =>
    exact ⟨frame, [.receiveByte none], rfl, List.append_assoc .., .inr (.inl ⟨rfl, rfl⟩)⟩
  | accepted frame e =>
    rw [acceptFrame_eq]
    exact ⟨frame, _, rfl, (List.append_assoc ..).trans (List.append_assoc ..), .inr (.inr (.inl ⟨rfl, rfl⟩))⟩
  | refused frame e =>
    rw [respondSymbol_eq]
    exact ⟨frame, symbolEntries 21 frame s, rfl, List.append_assoc .., .inr (.inr (.inr ⟨rfl, rfl⟩))⟩

/-- Settles O31: what comes after the reads of the frame is no delivered byte. -/
theorem passStoresTheBytesItReads : Obligations.PassStoresTheBytesItReads := by
  intro s
  obtain ⟨frame, tail, hbuf, htrace, htail⟩ := passEnd_trace (receive1_passEnd s)
  have hnone : received tail = [] := by
    rcases htail with ⟨_, rfl⟩ | ⟨_, rfl⟩ | ⟨_, rfl⟩ | ⟨_, rfl⟩
    · rfl
    · rfl
    · rw [received_append, received_symbolEntries]
      rfl
    · rw [received_symbolEntries]
  refine ⟨rfl, receive1_rxWrite s, _, htrace, fun j => ?_⟩
  rw [received_append, received_byteReads, hnone, List.append_nil, hbuf, read_storeBytes]

/-- Settles O32: of the four ends only one has a failed read, and nothing comes after it. -/
theorem failedReadIsFail : Obligations.FailedReadIsFail := by
  intro s es hes hfailed
  obtain ⟨frame, tail, _, htrace, htail⟩ := passEnd_trace (receive1_passEnd s)
  obtain rfl : es = byteReads frame ++ tail := List.append_cancel_left (hes.symm.trans htrace)
  obtain ⟨hfail, rfl⟩ : (receive1 s).1 = .fail ∧ tail = [.receiveByte none] := by
    rcases htail with ⟨_, rfl⟩ | h | ⟨_, rfl⟩ | ⟨_, rfl⟩
    · simp at hfailed
    · exact h
    · simp [acceptEvent] at hfailed
    · simp at hfailed
  simp [hfail]

/-- An accepted frame leaves its metadata in `LPI`; any other end of a pass leaves `LPI` as it was (R211, R216). -/
theorem passEnd_lpi {s : State} {r : Outcome × State} (h : PassEnd s r) :
    (∃ frame e, r = (.ack, acceptFrame frame (s.afterReading frame e))) ∨
      (r.1 ≠ .ack ∧ r.2.lpi = s.lpi ∧ r.2.lpiValid = s.lpiValid) := by
  cases h with
  | stopped ho frame e => exact .inr ⟨by rcases ho with rfl | rfl <;> simp, rfl, rfl⟩
  | readFailed frame e => exact .inr ⟨by simp, rfl, rfl⟩
  | accepted frame e => exact .inl ⟨frame, e, rfl⟩
  | refused frame e => exact .inr ⟨by simp, by rw [respondSymbol_eq]; rfl, by rw [respondSymbol_eq]; rfl⟩

theorem ne_rxevt_of_not_mem {es : List Entry} (h : ∀ off len info, Entry.rxevt off len info ∉ es) :
    ∀ e ∈ es, ∀ off len info, e ≠ .rxevt off len info :=
  fun _ he off len info heq => h off len info (heq ▸ he)

/-- Settles O33: the accepting end is the only one with metadata and with an event, and the event is its last entry. -/
theorem metadataIsWrittenOnAcceptOnly : Obligations.MetadataIsWrittenOnAcceptOnly := by
  intro s
  have hend := receive1_passEnd s
  rcases passEnd_lpi hend with ⟨frame, e, haccept⟩ | ⟨hnack, hlpi, hvalid⟩
  · rw [haccept, acceptFrame_eq]
    have htrace : s.trace ++ byteReads frame ++ symbolEntries 6 frame s ++ [acceptEvent frame] =
        s.trace ++ (byteReads frame ++ symbolEntries 6 frame s) ++ [acceptEvent frame] :=
      congrArg (· ++ _) (List.append_assoc ..)
    exact ⟨fun _ => ⟨rfl, _, _, _, htrace, ne_rxevt_of_not_mem (by simp)⟩, fun h => absurd rfl h⟩
  · refine ⟨fun h => absurd h hnack, fun _ => ⟨hlpi, hvalid, fun es hes => ne_rxevt_of_not_mem ?_⟩⟩
    obtain ⟨frame, tail, _, htrace, htail⟩ := passEnd_trace hend
    obtain rfl : es = byteReads frame ++ tail := List.append_cancel_left (hes.symm.trans htrace)
    rcases htail with ⟨_, rfl⟩ | ⟨_, rfl⟩ | ⟨hack, _⟩ | ⟨_, rfl⟩
    · simp
    · simp
    · exact absurd hack hnack
    · simp

/-- In simplex no symbol is due (R212, R221). -/
theorem symbolEntries_simplex {s : State} (hmode : s.commMode = .simplex) (sym : Byte) (frame : List Byte) :
    symbolEntries sym frame s = [] := by
  simp [symbolEntries, ackGuard, hmode]

/-- Settles O34: the symbol is the only entry of a pass that the mode takes away. -/
theorem simplexReceiverIsSilent : Obligations.SimplexReceiverIsSilent := by
  intro s hmode
  obtain ⟨frame, tail, _, htrace, htail⟩ := passEnd_trace (receive1_passEnd s)
  refine ⟨_, byteReads frame ++ tail ++ [.response (.outcome (receive1 s).1)], rfl, ?_, fun sym => ?_⟩
  · rw [respond_trace, htrace, List.append_assoc]
  · rw [symbolEntries_simplex hmode, symbolEntries_simplex hmode] at htail
    rcases htail with ⟨_, rfl⟩ | ⟨_, rfl⟩ | ⟨_, rfl⟩ | ⟨_, rfl⟩ <;> simp [acceptEvent]

/-- Settles O28: the pass is stopped at byte 0. -/
theorem foreignReceiverIdIsBusy : Obligations.ForeignReceiverIdIsBusy := by
  intro s b hread hid hbroadcast hrouter
  have hinto : receiveInto 0 s = (some b, storeRx 0 b (receiveByte s).2) := by
    rcases receiveInto_cases 0 s with ⟨hnone, _⟩ | ⟨b', hsome, hinto⟩
    · cases hnone.symm.trans hread
    · cases hsome.symm.trans hread
      exact hinto
  have hrejects : rejectsReceiver b (storeRx 0 b (receiveByte s).2) = true := by
    have hbroadcast' : b ≠ Config.broadcast := hbroadcast
    simp [rejectsReceiver, hid, hbroadcast', hrouter]
  have hpass : receive1 s = (.busy, storeRx 0 b (receiveByte s).2) := by
    rw [receive1_eq, readThen, hinto]
    exact if_pos hrejects
  rw [exec_receive hpass]
  exact congrArg _ (eq_of_own_eq (by simp [State.own, respond, storeRx, State.emit]) (by simp [hread]) rfl)

/-! ### The loop of `RECEIVE_FOR` (R230) -/

/-- Settles O37: the command is the first turn after the clock read, and a step while it runs is a further turn. -/
theorem receiveForLoop : Obligations.ReceiveForLoop := by
  intro duration t0 s run r hrun
  have hturn : run = .next (receiveForTurn t0 duration r) := by
    rcases hrun with ⟨rfl, rfl, rfl⟩ | ⟨rfl, hrunning, rfl⟩
    · rfl
    · simp [step, resume, hrunning]
  subst hturn
  refine ⟨fun hack => congrArg _ ?_, fun hnack hover => congrArg _ ?_, fun hnack hwithin => congrArg _ ?_⟩
  · exact if_pos hack
  · exact (if_neg hnack).trans (if_pos hover)
  · exact (if_neg hnack).trans (if_neg (Nat.not_lt.2 hwithin))

end Sys2Proof.Machine
end

section
/-! The receive engine on bytes that the strategy delivers (43_receive.md R201 to R208): the filters, and where each stops
the pass. -/

namespace Sys2Proof.Machine

/-! ### Bytes that the strategy delivers (20_memory.md R67, R72) -/

/-- `s` after the strategy delivered the bytes `bs` to the first reads of a pass, with the answers `rest` still to come. -/
abbrev State.afterDelivery (bs : List Byte) (rest : List (Option Byte)) (s : State) : State :=
  s.afterReading bs { s.env with byteIn := rest }

theorem eq_afterDelivery {s : State} {bs : List Byte} {rest : List (Option Byte)} (h : Delivers s bs rest) :
    s = s.afterDelivery [] (bs.map some ++ rest) := by
  have henv : s.env = { s.env with byteIn := bs.map some ++ rest } := by rw [← h]
  exact eq_of_own_eq rfl (List.append_nil _).symm henv

section
variable {i : Nat} {bs : List Byte} (hi : i = bs.length) (b : Byte) (rest : List (Option Byte)) (s : State)
include hi

theorem receiveInto_afterDelivery :
    receiveInto i (s.afterDelivery bs (some b :: rest)) = (some b, s.afterDelivery (bs ++ [b]) rest) := by
  subst hi
  rw [receiveInto_delivered bs.length rfl]
  exact congrArg _ (storeRx_afterReading bs b { s.env with byteIn := some b :: rest } { s.env with byteIn := rest } s)

theorem readThen_afterDelivery (o : Outcome) (rejects : Byte → State → Bool) (next : Byte → State → Outcome × State) :
    readThen i o rejects next (s.afterDelivery bs (some b :: rest)) =
      if rejects b (s.afterDelivery (bs ++ [b]) rest) then (o, s.afterDelivery (bs ++ [b]) rest)
      else next b (s.afterDelivery (bs ++ [b]) rest) := by
  rw [readThen, receiveInto_afterDelivery hi]

theorem receiveRest_afterDelivery_cons (n : Nat) (h : Byte) :
    receiveRest (n + 1) i h bs (s.afterDelivery bs (some b :: rest)) =
      if rejectsBusByte i h b s then (.stopped .busy, s.afterDelivery (bs ++ [b]) rest)
      else receiveRest n (i + 1) h (bs ++ [b]) (s.afterDelivery (bs ++ [b]) rest) := by
  rw [receiveRest, receiveInto_afterDelivery hi]
  rfl

end

/-- Delivered bytes that pass the bus-id filter are read one after the other (R206, R207). -/
theorem receiveRest_passing (n : Nat) {i : Nat} {bs : List Byte} (hi : i = bs.length) (h : Byte) (more : List Byte)
    (rest : List (Option Byte)) (s : State) (hpass : ∀ j b, more[j]? = some b → ¬ rejectsBusByte (i + j) h b s = true) :
    receiveRest (n + more.length) i h bs (s.afterDelivery bs (more.map some ++ rest)) =
      receiveRest n (i + more.length) h (bs ++ more) (s.afterDelivery (bs ++ more) rest) := by
  induction more generalizing i bs with
  | nil => simp
  | cons b more ih =>
    have hhead : ¬ rejectsBusByte i h b s = true := hpass 0 b rfl
    have hrest (j : Nat) (c : Byte) (hc : more[j]? = some c) : ¬ rejectsBusByte (i + 1 + j) h c s = true := by
      rw [Nat.add_assoc, Nat.add_comm 1]
      exact hpass (j + 1) c hc
    have hstep := ih (i := i + 1) (bs := bs ++ [b]) (by simp [hi]) hrest
    rw [List.append_assoc, Nat.add_assoc, Nat.add_comm 1] at hstep
    calc receiveRest (n + (more.length + 1)) i h bs (s.afterDelivery bs (some b :: (more.map some ++ rest)))
        = receiveRest (n + more.length) (i + 1) h (bs ++ [b]) (s.afterDelivery (bs ++ [b]) (more.map some ++ rest)) := by
          rw [← Nat.add_assoc, receiveRest_afterDelivery_cons hi, if_neg hhead]
      _ = receiveRest n (i + (more.length + 1)) h (bs ++ b :: more) (s.afterDelivery (bs ++ b :: more) rest) := hstep

/-! ### The filters, one byte after the other (R203 to R206) -/

section
variable {s : State} {dst len h : Byte} {more : List Byte} {rest : List (Option Byte)}

theorem not_rejectsReceiver (hdst : dst = s.deviceId ∨ dst = 0 ∨ s.router = true) : ¬ rejectsReceiver dst s = true := by
  rcases hdst with h | h | h <;> simp [rejectsReceiver, Config.broadcast, h]

theorem rejectsLength_iff : rejectsLength len s = true ↔ len.toNat ≤ 4 ∨ s.packetMaxLength ≤ len.toNat := by
  simp [rejectsLength]

theorem not_rejectsHeader (hmode : modeBit h = s.shared ∨ s.router = true) : ¬ rejectsHeader h s = true := by
  rcases hmode with h | h <;> simp [rejectsHeader, h]

/-- Byte 0 is read and tested. -/
theorem receive1_afterDelivery (dst : Byte) (rest : List (Option Byte)) (s : State) :
    receive1 (s.afterDelivery [] (some dst :: rest)) =
      if rejectsReceiver dst s then (.busy, s.afterDelivery [dst] rest)
      else receiveLength dst (s.afterDelivery [dst] rest) :=
  (receive1_eq _).trans (readThen_afterDelivery (bs := []) rfl ..)

/-- Byte 1 is read and tested. -/
theorem receiveLength_afterDelivery (dst len : Byte) (rest : List (Option Byte)) (s : State) :
    receiveLength dst (s.afterDelivery [dst] (some len :: rest)) =
      if rejectsLength len s then (.fail, s.afterDelivery [dst, len] rest)
      else receiveHeader dst len (s.afterDelivery [dst, len] rest) :=
  (receiveLength_eq ..).trans (readThen_afterDelivery (bs := [dst]) rfl ..)

/-- Byte 2 is read and tested. -/
theorem receiveHeader_afterDelivery (dst len h : Byte) (rest : List (Option Byte)) (s : State) :
    receiveHeader dst len (s.afterDelivery [dst, len] (some h :: rest)) =
      if rejectsHeader h s then (.busy, s.afterDelivery [dst, len, h] rest)
      else receiveTail dst len h (s.afterDelivery [dst, len, h] rest) :=
  (receiveHeader_eq ..).trans (readThen_afterDelivery (bs := [dst, len]) rfl ..)

/-- Byte 0 passes its filter: the pass goes on with byte 1. -/
theorem receive1_of_receiver (hdel : Delivers s (dst :: more) rest) (hdst : dst = s.deviceId ∨ dst = 0 ∨ s.router = true) :
    receive1 s = receiveLength dst (s.afterDelivery [dst] (more.map some ++ rest)) := by
  have hs : s = s.afterDelivery [] (some dst :: (more.map some ++ rest)) := eq_afterDelivery hdel
  exact (congrArg receive1 hs).trans <| (receive1_afterDelivery ..).trans (if_neg (not_rejectsReceiver hdst))

/-- Bytes 0 and 1 pass: byte 2 is read and tested. -/
theorem receive1_of_length (hdel : Delivers s (dst :: len :: h :: more) rest)
    (hdst : dst = s.deviceId ∨ dst = 0 ∨ s.router = true) (hlow : 5 ≤ len.toNat) (hhigh : len.toNat < s.packetMaxLength) :
    receive1 s =
      if rejectsHeader h s then (.busy, s.afterDelivery [dst, len, h] (more.map some ++ rest))
      else receiveTail dst len h (s.afterDelivery [dst, len, h] (more.map some ++ rest)) := by
  have hlegal : ¬ rejectsLength len s = true := by rw [rejectsLength_iff]; omega
  rw [receive1_of_receiver hdel hdst]
  exact (receiveLength_afterDelivery ..).trans <| (if_neg hlegal).trans (receiveHeader_afterDelivery ..)

/-- Bytes 0 to 2 pass: the pass goes on with the rest of the frame. -/
theorem receive1_of_header (hdel : Delivers s (dst :: len :: h :: more) rest)
    (hdst : dst = s.deviceId ∨ dst = 0 ∨ s.router = true) (hlow : 5 ≤ len.toNat) (hhigh : len.toNat < s.packetMaxLength)
    (hmode : modeBit h = s.shared ∨ s.router = true) :
    receive1 s = receiveTail dst len h (s.afterDelivery [dst, len, h] (more.map some ++ rest)) :=
  (receive1_of_length hdel hdst hlow hhigh).trans (if_neg (not_rejectsHeader hmode))

/-- The filter on a byte after the header (R206). -/
theorem rejectsBusByte_iff {j : Nat} {b : Byte} :
    rejectsBusByte (3 + j) h b s = true ↔
      j < 4 ∧ s.shared = true ∧ modeBit h = true ∧ s.router = false ∧ s.busId.bytes[j]? ≠ some b := by
  have hrange : decide (3 ≤ 3 + j ∧ 3 + j ≤ 6) = decide (j < 4) := decide_eq_decide.2 (by omega)
  rw [rejectsBusByte, hrange, Nat.add_sub_cancel_left]
  simp [and_assoc]

/-- What follows the header agrees with our bus id as far as it goes, where the filter looks at it (R206). -/
abbrev BusIdAgrees (s : State) (h : Byte) (body : List Byte) : Prop :=
  s.shared = true → modeBit h = true → s.router = false → body.take 4 <+: s.busId.bytes

theorem not_rejectsBusByte {body : List Byte} (hbus : BusIdAgrees s h body) (j : Nat) (b : Byte)
    (hj : body[j]? = some b) : ¬ rejectsBusByte (3 + j) h b s = true := by
  intro hrejects
  obtain ⟨hlt, hshared, hmode, hrouter, hne⟩ := rejectsBusByte_iff.1 hrejects
  have htake : (body.take 4)[j]? = some b := (List.getElem?_take_of_lt hlt).trans hj
  obtain ⟨hlen, rfl⟩ := List.getElem?_eq_some_iff.1 htake
  exact hne (List.prefix_iff_getElem?.1 (hbus hshared hmode hrouter) j hlen)

/-- A frame delivered whole that passes every filter is read to its last byte and finished. -/
theorem receive1_whole {body : List Byte} (hdel : Delivers s (dst :: len :: h :: body) rest)
    (hlen : len.toNat = body.length + 3) (hlow : 5 ≤ len.toNat) (hhigh : len.toNat < s.packetMaxLength)
    (hdst : dst = s.deviceId ∨ dst = 0 ∨ s.router = true) (hmode : modeBit h = s.shared ∨ s.router = true)
    (hbus : BusIdAgrees s h body) :
    receive1 s = finishFrame (dst :: len :: h :: body) (s.afterDelivery (dst :: len :: h :: body) rest) := by
  have hcount : len.toNat - 3 = 0 + body.length := by omega
  have hrest := receiveRest_passing 0 (bs := [dst, len, h]) rfl h body rest s (not_rejectsBusByte hbus)
  rw [← hcount] at hrest
  exact (receive1_of_header hdel hdst hlow hhigh hmode).trans (receiveTail_of_whole hrest)

/-- Settles O29: the pass is stopped at byte 1. -/
theorem illegalLengthIsFail : Obligations.IllegalLengthIsFail := by
  intro s dst len rest hdel hdst hlen
  have hpass : receive1 s = (.fail, s.afterDelivery [dst, len] rest) :=
    (receive1_of_receiver hdel hdst).trans <| (receiveLength_afterDelivery ..).trans (if_pos (rejectsLength_iff.2 hlen))
  rw [exec_receive hpass]
  exact congrArg _ (eq_of_own_eq rfl (List.append_assoc ..) rfl)

/-- A byte of the receiver bus id that differs from ours ends the pass there (R206, decision D17). -/
theorem receive1_foreignBusId {body : List Byte} {b : Byte} (hdel : Delivers s (dst :: len :: h :: (body ++ [b])) rest)
    (hlow : 5 ≤ len.toNat) (hhigh : len.toNat < s.packetMaxLength) (hlen : 3 + body.length < len.toNat)
    (hdst : dst = s.deviceId ∨ dst = 0 ∨ s.router = true) (hmode : modeBit h = s.shared ∨ s.router = true)
    (hbus : BusIdAgrees s h body) (hdiffers : rejectsBusByte (3 + body.length) h b s = true) :
    receive1 s = (.busy, s.afterDelivery (dst :: len :: h :: (body ++ [b])) rest) := by
  obtain ⟨n, hn⟩ : ∃ n, len.toNat - 3 = n + 1 + body.length := ⟨len.toNat - 4 - body.length, by omega⟩
  have hrest := receiveRest_passing (n + 1) (bs := [dst, len, h]) rfl h body (some b :: rest) s (not_rejectsBusByte hbus)
  have hindex : 3 + body.length = ([dst, len, h] ++ body).length := by rw [List.length_append]; rfl
  have hstop := receiveRest_afterDelivery_cons hindex b rest s n h
  rw [if_pos hdiffers] at hstop
  have hbytes : (body ++ [b]).map some ++ rest = body.map some ++ some b :: rest := by simp
  rw [← hn] at hrest
  rw [receive1_of_header hdel hdst hlow hhigh hmode, hbytes]
  exact receiveTail_of_stopped (hrest.trans hstop)

end

/-- Settles O30: the header test stops the pass at byte 2, the bus-id filter at the byte that differs. -/
theorem foreignHeaderOrBusIdIsBusy : Obligations.ForeignHeaderOrBusIdIsBusy := by
  intro s dst len h bus rest hdel hdst hrouter hlow hhigh hforeign
  have hdst' : dst = s.deviceId ∨ dst = 0 ∨ s.router = true := hdst.imp_right .inl
  have hpass : receive1 s = (.busy, s.afterDelivery (dst :: len :: h :: bus) rest) := by
    rcases hforeign with ⟨rfl, hmode⟩ | ⟨j, b, hj, hlen, hshared, hmode, rfl, hdiffers⟩
    · have hrejects : rejectsHeader h s = true := by simp [rejectsHeader, hmode, hrouter]
      exact (receive1_of_length hdel hdst' hlow hhigh).trans (if_pos hrejects)
    · have hcount : (s.busId.bytes.take j).length = j := List.length_take_of_le (Nat.le_of_lt hj)
      exact receive1_foreignBusId hdel hlow hhigh (by rwa [hcount]) hdst' (.inl (hmode.trans hshared.symm))
        (fun _ _ _ => (List.take_prefix ..).trans (List.take_prefix ..))
        (rejectsBusByte_iff.2 ⟨by rwa [hcount], hshared, hmode, hrouter, by rwa [hcount]⟩)
  rw [exec_receive hpass]
  exact ⟨_, rfl, rfl, rfl, rfl, read_storeBytes _ _⟩

end Sys2Proof.Machine
end

section
/-! Frames delivered whole (43_receive.md R209 to R217): accepted as the framer builds them, refused with a wrong last byte or cut
short; and the frame rows, received (30_encoding.md R95). -/

namespace Sys2Proof.Machine

/-! ### When a response symbol is due (R212) -/

theorem bytes_inj {a b : BusId} : a.bytes = b.bytes ↔ a = b := by
  cases a
  cases b
  simp [BusId.bytes]

/-- Four bytes from index 3 on are a bus id exactly when the frame goes that far. -/
theorem busIdAt_eq_iff (dst len h : Byte) (body : List Byte) (bus : BusId) :
    7 ≤ (dst :: len :: h :: body).length ∧ busIdAt (dst :: len :: h :: body) 3 = bus ↔ body.take 4 = bus.bytes := by
  rcases body with _ | ⟨b0, _ | ⟨b1, _ | ⟨b2, _ | ⟨b3, more⟩⟩⟩⟩
  case cons.cons.cons.cons => simpa [busIdAt, BusId.bytes] using (bytes_inj (a := ⟨b0, b1, b2, b3⟩) (b := bus)).symm
  all_goals simp [BusId.bytes]

/-- The guard on a frame, field by field. -/
theorem ackGuard_iff (dst len h : Byte) (body : List Byte) (s : State) :
    ackGuard (dst :: len :: h :: body) s = true ↔
      ackRequestBit h = true ∧ dst ≠ 0 ∧ s.commMode ≠ .simplex ∧
        (s.shared = false ∨ (modeBit h = true ∧ body.take 4 = s.busId.bytes)) := by
  rw [← busIdAt_eq_iff dst len h body]
  simp [ackGuard, Config.broadcast, and_assoc]

theorem framePrefix_take {h : Byte} (hmode : modeBit h = true) (rbus sbus : BusId) (sid : Byte) (more : List Byte) :
    (framePrefix h rbus sbus sid ++ more).take 4 = rbus.bytes := by
  simp [framePrefix, hmode, BusId.bytes]

/-- On a framer's bytes the guard reads the receiver bus id they were built with. -/
theorem symbolEntries_framePrefix (sym dst len h : Byte) (rbus sbus : BusId) (sid : Byte) (more : List Byte) (s : State) :
    symbolEntries sym (dst :: len :: h :: (framePrefix h rbus sbus sid ++ more)) s =
      if ResponseDue s dst h rbus then [Entry.sendResponse sym] else [] := by
  refine if_congr ((ackGuard_iff ..).trans ?_) rfl rfl
  have hbus (hmode : modeBit h = true) :
      (framePrefix h rbus sbus sid ++ more).take 4 = s.busId.bytes ↔ rbus = s.busId := by
    rw [framePrefix_take hmode, bytes_inj]
  rw [and_congr_right hbus]

/-! ### Whole frames (R209 to R217) -/

section
variable {s : State} {dst h : Byte} {rbus sbus : BusId} {sid c : Byte} {payload content : List Byte} {rest : List (Option Byte)}

/-- A framer's bytes, with any last byte, are read whole by a device they pass the filters of. -/
theorem receive1_framed (hcontent : content = framePrefix h rbus sbus sid ++ payload)
    (hdel : Delivers s (frameBody dst h content ++ [c]) rest) (hfilters : PassesFilters s dst h rbus)
    (hlow : 5 ≤ content.length + 4) (hhigh : content.length + 4 < s.packetMaxLength) (hmax : s.packetMaxLength ≤ 255) :
    receive1 s =
      finishFrame (frameBody dst h content ++ [c]) (s.afterDelivery (frameBody dst h content ++ [c]) rest) := by
  obtain ⟨hdst, hmode, hrbus⟩ := hfilters
  have hbyte : (BitVec.ofNat 8 (content.length + 4)).toNat = content.length + 4 := by
    rw [BitVec.toNat_ofNat, Nat.mod_eq_of_lt (by omega)]
  refine receive1_whole (len := BitVec.ofNat 8 (content.length + 4)) (body := content ++ [c]) hdel (by simp [hbyte])
    (hbyte.symm ▸ hlow) (hbyte.symm ▸ hhigh) hdst hmode fun hshared hmodeBit hrouter => ?_
  rw [hcontent, List.append_assoc, framePrefix_take hmodeBit, hrbus hshared hmodeBit hrouter]

/-- A whole frame that fails its checks leaves the buffer written and the symbol sent where due, and nothing else (R216). -/
theorem exec_receive_refused {frame : List Byte} (hpass : receive1 s = finishFrame frame (s.afterDelivery frame rest))
    (hinvalid : frameValid frame = false) :
    ∃ t, exec .receive s = .next t ∧ t.own = { s.own with rxbuf := t.rxbuf } ∧ t.env = { s.env with byteIn := rest } ∧
      t.trace = s.trace ++ byteReads frame ++ symbolEntries 21 frame s ++ [.response (.outcome .nak)] ∧
      ∀ j, t.rxbuf.read j = if j < frame.length then frame[j]? else s.rxbuf.read j := by
  have hnak : receive1 s = (.nak, respondSymbol Config.nakSymbol frame (s.afterDelivery frame rest)) :=
    hpass.trans (if_neg (Bool.eq_false_iff.1 hinvalid))
  rw [exec_receive hnak, respondSymbol_eq]
  exact ⟨_, rfl, rfl, rfl, rfl, read_storeBytes _ _⟩

/-- Settles O36: the CRC check refuses the first kind of frame, the length check the second. -/
theorem corruptFrameIsRejected : Obligations.CorruptFrameIsRejected := by
  constructor
  · intro s dst h content rbus sbus sid payload c rest hcontent hdel hfilters hc hlow hhigh hmax
    have hcrc : crc8 (frameBody dst h content ++ [c]) ≠ 0 := (crcResidueIsZeroExactly _ _).not.2 hc
    have hinvalid : frameValid (frameBody dst h content ++ [c]) = false := by
      rw [frameValid, decide_eq_false hcrc, Bool.false_and]
    have hlength : (frameBody dst h content ++ [c]).length = content.length + 4 := by simp
    obtain ⟨t, hexec, hown, henv, htrace, hread⟩ :=
      exec_receive_refused (receive1_framed hcontent hdel hfilters hlow hhigh hmax) hinvalid
    refine ⟨t, hexec, hown, henv, ?_, ?_⟩
    · rw [htrace, ← symbolEntries_framePrefix 21 dst (BitVec.ofNat 8 (content.length + 4)) h rbus sbus sid (payload ++ [c]),
        ← List.append_assoc, ← hcontent]
      rfl
    · rwa [hlength] at hread
  · intro s dst len h body rest hdel hlen hlow hhigh hshort hdst hmode hbus
    have hinvalid : frameValid (dst :: len :: h :: body) = false := by
      have hneeds : ¬ overhead h + 1 ≤ (dst :: len :: h :: body).length := by simp; omega
      exact (congrArg (_ && ·) (decide_eq_false hneeds)).trans (Bool.and_false _)
    have hpass := receive1_whole hdel hlen hlow hhigh hdst hmode fun hs hm hr => hbus hs hm hr ▸ List.take_prefix ..
    obtain ⟨t, hexec, hown, henv, htrace, hread⟩ := exec_receive_refused hpass hinvalid
    refine ⟨t, hexec, hown, henv, ?_, ?_⟩
    · rw [htrace, symbolEntries, if_congr (ackGuard_iff ..) rfl rfl]
      rfl
    · rw [hlen]
      exact hread

/-- A framer's bytes pass both checks, and the deframer reads the metadata and the payload's place from them: the frame is
accepted (R209 to R217). -/
theorem receive1_encodeFrame (hdel : Delivers s (encodeFrame dst h rbus sbus sid payload) rest)
    (hfilters : PassesFilters s dst h rbus) (hlow : 5 ≤ overhead h + payload.length + 1)
    (hhigh : overhead h + payload.length + 1 < s.packetMaxLength) (hmax : s.packetMaxLength ≤ 255) :
    receive1 s =
      (.ack, { s.afterDelivery (encodeFrame dst h rbus sbus sid payload) rest with
        lpi := frameInfo dst h rbus sbus sid
        lpiValid := true
        trace := s.trace ++ byteReads (encodeFrame dst h rbus sbus sid payload) ++
          (if ResponseDue s dst h rbus then [Entry.sendResponse 6] else []) ++
          [.rxevt (BitVec.ofNat 8 (overhead h)) (BitVec.ofNat 8 payload.length) (frameInfo dst h rbus sbus sid)] }) := by
  have hcontent : (framePrefix h rbus sbus sid ++ payload).length + 4 = overhead h + payload.length + 1 := by
    rw [List.length_append, framePrefix_length, ← prefixLen_add]
    omega
  have hcrc : crc8 (encodeFrame dst h rbus sbus sid payload) = 0 := (crcResidueIsZeroExactly _ _).2 rfl
  have hvalid : frameValid (encodeFrame dst h rbus sbus sid payload) = true := by
    have hneeds : overhead h + 1 ≤ (encodeFrame dst h rbus sbus sid payload).length := by
      rw [encodeFrame_length]
      omega
    exact Bool.and_eq_true_iff.2 ⟨decide_eq_true hcrc, decide_eq_true hneeds⟩
  have hpass : receive1 s = finishFrame (encodeFrame dst h rbus sbus sid payload) _ :=
    receive1_framed rfl hdel hfilters (hcontent ▸ hlow) (hcontent ▸ hhigh) hmax
  obtain ⟨_, hlen, hinfo, _⟩ := frameDecodesToWhatWasEncoded dst h rbus sbus sid payload s.packetMaxLength hhigh hmax
  have hpayload : decodePayloadLen (encodeFrame dst h rbus sbus sid payload) = payload.length := by
    have hheader : (encodeFrame dst h rbus sbus sid payload).getD 2 0 = h := rfl
    rw [decodePayloadLen, hlen, hheader]
    omega
  have hsymbol : symbolEntries 6 (encodeFrame dst h rbus sbus sid payload) s =
      if ResponseDue s dst h rbus then [Entry.sendResponse 6] else [] := by
    rw [encodeFrame_eq_cons, symbolEntries_framePrefix]
  rw [hpass, finishFrame, if_pos hvalid, acceptFrame_eq, ← hsymbol, ← hinfo, ← hpayload]
  rfl

/-- Settles O35: the accepted pass, and the response of the command after it. -/
theorem encodedFrameIsAccepted : Obligations.EncodedFrameIsAccepted := by
  intro s dst h rbus sbus sid payload rest hdel hfilters hlow hhigh hmax
  rw [exec_receive (receive1_encodeFrame hdel hfilters hlow hhigh hmax)]
  refine ⟨_, rfl, rfl, rfl, List.append_assoc .., ?_⟩
  rw [← encodeFrame_length dst h rbus sbus sid payload]
  exact read_storeBytes _ _

end

/-! ### Frame rows, received (30_encoding.md R90, R95; log 13) -/

/-- Where enough bytes are delivered for the rest of a frame, what comes after them decides nothing. -/
theorem receiveRest_ignoresRest {n i : Nat} {bs more : List Byte} (hi : i = bs.length) (hn : n ≤ more.length) (h : Byte)
    (s : State) :
    ∃ scan read, ∀ rest, ∃ left,
      receiveRest n i h bs (s.afterDelivery bs (more.map some ++ rest)) = (scan, s.afterDelivery read left) := by
  induction n generalizing i bs more with
  | zero => exact ⟨_, _, fun rest => ⟨_, rfl⟩⟩
  | succ n ih =>
    cases more with
    | nil => cases hn
    | cons b more =>
      by_cases hrejects : rejectsBusByte i h b s = true
      · exact ⟨_, _, fun rest => ⟨_, (receiveRest_afterDelivery_cons hi b _ s n h).trans (if_pos hrejects)⟩⟩
      · obtain ⟨scan, read, hrest⟩ := ih (i := i + 1) (bs := bs ++ [b]) (by simp [hi]) (Nat.le_of_succ_le_succ hn)
        refine ⟨scan, read, fun rest => ?_⟩
        obtain ⟨left, heq⟩ := hrest rest
        exact ⟨left, (receiveRest_afterDelivery_cons hi b _ s n h).trans <| (if_neg hrejects).trans heq⟩

/-- The end of a frame does not look at the outside. -/
theorem finishFrame_env (frame : List Byte) (s : State) (e : Env) :
    { (finishFrame frame s).2 with env := e } = (finishFrame frame { s with env := e }).2 := by
  simp only [finishFrame, acceptFrame_eq, respondSymbol_eq]
  split <;> rfl

/-- A pass to which at least as many bytes are delivered as the length byte asks for leaves the same block and the same trace
whatever comes after them (70_reset_and_hazards.md R325). -/
theorem receive1_ignoresRest {len : Byte} {more : List Byte} (hlen : len.toNat - 3 ≤ more.length) (dst h : Byte) (s : State)
    (rest rest' : List (Option Byte)) (e : Env) :
    { (receive1 (s.afterDelivery [] ((dst :: len :: h :: more).map some ++ rest))).2 with env := e } =
      { (receive1 (s.afterDelivery [] ((dst :: len :: h :: more).map some ++ rest'))).2 with env := e } := by
  simp only [List.map_cons, List.cons_append, receive1_afterDelivery, receiveLength_afterDelivery,
    receiveHeader_afterDelivery]
  split
  · rfl
  split
  · rfl
  split
  · rfl
  obtain ⟨scan, read, hrest⟩ := receiveRest_ignoresRest (i := 3) (bs := [dst, len, h]) rfl hlen h s
  obtain ⟨left, heq⟩ := hrest rest
  obtain ⟨left', heq'⟩ := hrest rest'
  cases scan with
  | stopped o => rw [receiveTail_of_stopped heq, receiveTail_of_stopped heq']; rfl
  | whole frame => rw [receiveTail_of_whole heq, receiveTail_of_whole heq', finishFrame_env, finishFrame_env]; rfl

theorem deliverFrame_eq (bytes : List Byte) (s : State) : deliverFrame bytes s = s.afterDelivery [] (bytes.map some ++ []) :=
  eq_afterDelivery (s := deliverFrame bytes s) (List.append_nil _).symm

/-- A received frame row is a pass over its bytes, and these are as many as its length byte asks for: the length byte is the
number of bytes modulo 256. -/
theorem exec_receivedRow {i : Instr} {bytes : List Byte} (henc : encode i = ⟨.frame .received, bytes⟩) (s : State) :
    exec i s = .next { (receive1 (deliverFrame bytes s)).2 with env := s.env } ∧
      ∃ dst len h more, bytes = dst :: len :: h :: more ∧ len.toNat - 3 ≤ more.length := by
  obtain ⟨dst, h, content, crc, rfl, _, hexec⟩ := wireFrame_of_encode henc
  refine ⟨hexec s, dst, BitVec.ofNat 8 (content.length + 4), h, content ++ [crc], rfl, ?_⟩
  have hmod : (content.length + 4) % 2 ^ 8 ≤ content.length + 4 := Nat.mod_le ..
  rw [BitVec.toNat_ofNat, List.length_append, List.length_singleton]
  omega

/-- Settles O47: no pass over the row reads beyond the row. -/
theorem receivedFrameRowIsAPassOverItsBytes : Obligations.ReceivedFrameRowIsAPassOverItsBytes := by
  intro s i bytes henc
  obtain ⟨hexec, dst, len, h, more, rfl, hlen⟩ := exec_receivedRow henc s
  refine ⟨hexec, fun rest hdel => ?_⟩
  rw [hexec, deliverFrame_eq, receive1_ignoresRest hlen dst h s [] rest, ← eq_afterDelivery hdel]

/-- The optional bytes of a row's header: only the two bits of the row count (R95, R134). -/
theorem framePrefix_row (flags : BitVec 6) (row : BitVec 2) (rbus sbus : BusId) (sid : Byte) :
    framePrefix (flags ++ row) rbus sbus sid =
      (if row.getLsbD 0 then rbus.bytes else []) ++
        (if row.getLsbD 1 then (if row.getLsbD 0 then sbus.bytes ++ [sid] else [sid]) else []) := by
  have hrow : (flags ++ row).extractLsb' 0 2 = row := headerOfRow_row flags row
  rw [framePrefix, modeBit_eq_extract, senderInfoBit_eq_extract, hrow]

/-- Settles O48: each of the four rows has the framer's bytes for its layout, so its pass accepts them. -/
theorem receivedFrameRowsAreAccepted : Obligations.ReceivedFrameRowsAreAccepted := by
  intro s flags rbus sbus sid dst h payload i hrow hfilters hlow hhigh hmax
  have henc : encode i = ⟨.frame .received, encodeFrame dst h rbus sbus sid payload⟩ := by
    rcases hrow with ⟨rfl, rfl⟩ | ⟨rfl, rfl⟩ | ⟨rfl, rfl⟩ | ⟨rfl, rfl⟩ <;> rw [encodeFrame, framePrefix_row] <;> rfl
  have hpass := receive1_encodeFrame (s := deliverFrame (encodeFrame dst h rbus sbus sid payload) s) (rest := [])
    (List.append_nil _).symm hfilters hlow hhigh hmax
  rw [(exec_receivedRow henc s).1, hpass, henc]
  refine ⟨_, rfl, rfl, rfl, rfl, ?_⟩
  rw [← encodeFrame_length dst h rbus sbus sid payload]
  exact read_storeBytes _ _

end Sys2Proof.Machine
end

section
/-! The bus controller's commands (44_controller.md): `BEGIN`, the setters, `GET_ID` and `REPLY`. -/

namespace Sys2Proof.Machine

/-! ### BEGIN (R240) -/

/-- A supplied draw that is in range is the answer (20_memory.md R71; log 3). -/
theorem random_of_supplied {n d : Nat} {rest : List Nat} {s : State} (h : s.env.drawIn = d :: rest) (hd : d < n) :
    (random n s).1 = d := by
  rw [random, h]
  exact Nat.mod_eq_of_lt hd

/-- Settles O38: the draw of R240 is the one made after the seed, and the delay alone moves the outside time. -/
theorem beginSeedsDrawsAndSleeps : Obligations.BeginSeedsDrawsAndSleeps := by
  intro s
  refine ⟨(random Config.initialMaxDelay (seed s)).1, _, rfl, random_lt (by decide) _, ?_, ?_, ?_, ?_⟩
  · rw [respond_own, delay_own, random_own, seed_own]
  · simp [Config.initialMaxDelay]
  · simp
  · exact fun d rest hsupplied hd => random_of_supplied (s := seed s) hsupplied hd

/-! ### The setters and GET_ID (R241 to R250) -/

/-- A legal Boolean operand writes its flag and is answered by `VOID` (R243 to R247, 30_encoding.md R122). -/
theorem setFlag_of_bool {v : Byte} {f : Bool} (h : v = if f then 1 else 0) (write : Bool → State) :
    setFlag v write = .next (respond .void (write f)) := by
  subst h
  cases f <;> rfl

/-- Settles O39: the five flags by their common rule, and the other registers by one write each. -/
theorem settersWriteTheirRegister : Obligations.SettersWriteTheirRegister := by
  intro s id a b v bus f hv
  exact ⟨rfl, rfl, setFlag_of_bool hv _, setFlag_of_bool hv _, setFlag_of_bool hv _, setFlag_of_bool hv _,
    setFlag_of_bool hv _, rfl, rfl, rfl⟩

/-- Settles O40: `GET_ID` is its response and nothing else. -/
theorem getIdReturnsTheDeviceId : Obligations.GetIdReturnsTheDeviceId := fun _ => rfl

/-! ### REPLY (R251) -/

section
variable {s : State} (payload : List Byte)

/-- A reply to a named sender is the one-shot `ENQUEUE` to its id and bus with `hsel = 0` (R251). -/
theorem exec_reply_eq_enqueue (hvalid : s.lpiValid = true) (hsender : s.lpi.senderId ≠ 0) :
    exec (.reply payload) s = exec (.enqueue s.lpi.senderId s.lpi.senderBusId 0 0 0 payload) s :=
  (if_pos hvalid).trans (if_neg hsender)

theorem exec_reply_of_broadcast (hvalid : s.lpiValid = true) (hsender : s.lpi.senderId = 0) :
    exec (.reply payload) s = .next (respond .noop s) :=
  (if_pos hvalid).trans (if_pos hsender)

theorem exec_reply_of_not_lpiValid (hvalid : s.lpiValid = false) :
    exec (.reply payload) s = .refused .replyBeforeAccept :=
  if_neg (Bool.eq_false_iff.1 hvalid)

end

/-- Settles O41: the three ends of the reply are those of its enqueue (O14, O16, O17). -/
theorem replyEnqueuesToTheLastSender : Obligations.ReplyEnqueuesToTheLastSender := by
  intro s payload h hvalid hsender hheader
  have hused : HeaderUsed s 0 0 h := .inl ⟨rfl, hheader⟩
  rw [exec_reply_eq_enqueue payload hvalid hsender]
  exact ⟨fun i => enqueueTakesTheLowestFreeSlot s _ _ 0 0 0 h payload i hused,
    enqueueTooLongFails s _ _ 0 0 0 h payload hused,
    enqueueOnAFullQueueFails s _ _ 0 0 0 h payload hused⟩

/-- Settles O42: without a sender to answer, no enqueue is made. -/
theorem replyWithoutASender : Obligations.ReplyWithoutASender := fun _ payload =>
  ⟨exec_reply_of_broadcast payload, exec_reply_of_not_lpiValid payload⟩

end Sys2Proof.Machine
end

section
/-! The address-request arbiter (45_id_acquisition.md R270 to R274): the ends of `ENQ` for a probe, the turns of the scan's two
loops, and the first turn of `ACQUIRE_ID`. -/

namespace Sys2Proof.Machine

/-! ### The ends of the command (R270, R273, R274) -/

theorem endAcquire_eq (s : State) :
    endAcquire s = { s with running := .idle, trace := s.trace ++ [.response .void] } := rfl

theorem failAcquire_eq (s : State) :
    failAcquire s =
      { s with running := .idle, trace := s.trace ++ [.errevt .idAcquisitionFail 0x100, .response .void] } :=
  eq_of_own_eq rfl (List.append_assoc ..) rfl

/-- A scan that fails for an event of its own has that event before the two of every failed scan (R274). -/
theorem failAcquire_raiseError (kind : ErrorKind) (data : Half) (s : State) :
    failAcquire (raiseError kind data s) =
      { s with
        running := .idle
        trace := s.trace ++ [.errevt kind data, .errevt .idAcquisitionFail 0x100, .response .void] } := by
  rw [failAcquire_eq]
  exact eq_of_own_eq rfl (List.append_assoc ..) rfl

theorem acquireNext_of_assigned {s : State} (t0 : Time) (k : Nat) (hid : s.deviceId ≠ 255) :
    acquireNext t0 k s = endAcquire s :=
  if_pos hid

theorem acquireNext_of_unassigned {s : State} (t0 : Time) (k : Nat) (hid : s.deviceId = 255) :
    acquireNext t0 k s = { s with running := .acquireScan t0 (k + 1) } :=
  if_neg (not_not_intro hid)

/-! ### The window of the scan (R272) -/

theorem scanOver_of_le {t t0 : Time} (hover : 5000000 ≤ (t - t0).toNat) : scanOver t t0 = true :=
  decide_eq_true hover

theorem not_scanOver_of_lt {t t0 : Time} (hopen : (t - t0).toNat < 5000000) : ¬ scanOver t t0 = true := fun hover =>
  absurd (of_decide_eq_true hover) (Nat.not_le.2 hopen)

/-! ### The probe of a candidate (R271; 41_queue_scheduler.md R152 to R155) -/

/-- The slot that holds the probe of candidate `k` enqueued at `t`: the one byte 63, one-shot (R271). -/
def probeSlot (k : Nat) (h : Byte) (t : Time) (s : State) : Slot :=
  { state := .toBeSent, destination := BitVec.ofNat 8 k, header := h,
    content := framePrefix h s.busId s.busId s.deviceId ++ [63], length := BitVec.ofNat 8 (prefixLen h + 1),
    registration := t, attempts := 0, timing := 0 }

theorem pendingSlot_slotContent_probe (k : Nat) (h : Byte) (t : Time) (s : State) :
    pendingSlot (BitVec.ofNat 8 k) h (slotContent h s.busId [Config.acquireIdByte] s) t 0 = probeSlot k h t s := by
  simp [pendingSlot, slotContent, probeSlot, Config.acquireIdByte]

section
variable {s : State} {h : Byte} (k : Nat) (hheader : h = headerOfBits s.shared s.senderInfoEn s.acknowledge)
include hheader

theorem enqProbe_of_tooLong (hlong : s.packetMaxLength ≤ overhead h + 2) :
    enqProbe k s = (none, raiseError .contentTooLong (BitVec.ofNat 16 (overhead h + 2)) s) := by
  subst hheader
  exact if_pos hlong

theorem enqProbe_of_full (hfits : overhead h + 2 < s.packetMaxLength) (hfull : ∀ p ∈ s.queue, p.state ≠ .free) :
    enqProbe k s = (none, raiseError .packetsBufferFull (BitVec.ofNat 16 s.queue.length) s) := by
  subst hheader
  refine (if_neg (Nat.not_le.2 hfits)).trans ?_
  rw [freeSlot_none.2 hfull]

theorem enqProbe_of_lowestFree {i : Nat} (hfits : overhead h + 2 < s.packetMaxLength) (hfree : LowestFree s i) :
    enqProbe k s = (some i, setSlot i (probeSlot k h (now s).1 s) (now s).2) := by
  obtain ⟨hi, hstate, hlowest⟩ := hfree
  subst hheader
  refine (if_neg (Nat.not_le.2 hfits)).trans ?_
  rw [freeSlot_of hi hstate hlowest, ← pendingSlot_slotContent_probe]
  rfl

end

/-! ### A turn of the outer loop (R270, R271, R274) -/

theorem acquireScanTurn_of_exhausted {k : Nat} (t0 : Time) (s : State) (hk : 254 < k) :
    acquireScanTurn t0 k s = failAcquire s :=
  if_neg (Nat.not_le.2 hk)

section
variable {s u : State} {t0 : Time} {k : Nat} (hk : k ≤ 254)
include hk

theorem acquireScanTurn_of_over (hover : 5000000 ≤ ((now s).1 - t0).toNat) :
    acquireScanTurn t0 k s = failAcquire (now s).2 :=
  (if_pos hk).trans (if_pos (scanOver_of_le hover))

variable (hopen : ((now s).1 - t0).toNat < 5000000)
include hopen

theorem acquireScanTurn_of_notEnqueued (henq : enqProbe k (now s).2 = (none, u)) :
    acquireScanTurn t0 k s = failAcquire u := by
  refine (if_pos hk).trans ((if_neg (not_scanOver_of_lt hopen)).trans ?_)
  rw [henq]

theorem acquireScanTurn_of_enqueued {i : Nat} (henq : enqProbe k (now s).2 = (some i, u)) :
    acquireScanTurn t0 k s = { u with running := .acquireProbe t0 k i } := by
  refine (if_pos hk).trans ((if_neg (not_scanOver_of_lt hopen)).trans ?_)
  rw [henq]

variable {h : Byte} (hheader : h = headerOfBits s.shared s.senderInfoEn s.acknowledge)
include hheader

/-- Inside the window, a probe that fits goes into the lowest free slot, and the inner loop waits for that slot. -/
theorem acquireScanTurn_of_lowestFree {i : Nat} (hfits : overhead h + 2 < s.packetMaxLength) (hfree : LowestFree s i) :
    acquireScanTurn t0 k s =
      { (now (now s).2).2 with
        running := .acquireProbe t0 k i
        queue := s.queue.set i (probeSlot k h (now (now s).2).1 s) } :=
  acquireScanTurn_of_enqueued hk hopen (enqProbe_of_lowestFree (s := (now s).2) k hheader hfits hfree)

theorem acquireScanTurn_of_tooLong (hlong : s.packetMaxLength ≤ overhead h + 2) :
    acquireScanTurn t0 k s =
      { (now s).2 with
        running := .idle
        trace := (now s).2.trace ++
          [.errevt .contentTooLong (BitVec.ofNat 16 (overhead h + 2)), .errevt .idAcquisitionFail 0x100,
            .response .void] } :=
  (acquireScanTurn_of_notEnqueued hk hopen (enqProbe_of_tooLong (s := (now s).2) k hheader hlong)).trans
    (failAcquire_raiseError ..)

theorem acquireScanTurn_of_full (hfits : overhead h + 2 < s.packetMaxLength) (hfull : ∀ p ∈ s.queue, p.state ≠ .free) :
    acquireScanTurn t0 k s =
      { (now s).2 with
        running := .idle
        trace := (now s).2.trace ++
          [.errevt .packetsBufferFull (BitVec.ofNat 16 s.queue.length), .errevt .idAcquisitionFail 0x100,
            .response .void] } :=
  (acquireScanTurn_of_notEnqueued hk hopen (enqProbe_of_full (s := (now s).2) k hheader hfits hfull)).trans
    (failAcquire_raiseError ..)

end

/-- Settles O43: the command is the scan's turn for candidate 1, after the clock read of its start. -/
theorem acquireIdProbesIdOne : Obligations.AcquireIdProbesIdOne := by
  intro s h hheader
  have hexec : exec .acquireId s = .next (acquireScanTurn (now s).1 1 (now s).2) := rfl
  have hone : 1 ≤ 254 := by decide
  rw [hexec]
  refine ⟨fun i hopen hfits hfree => congrArg _ ?_, fun hover => congrArg _ ?_, fun hopen hlong => congrArg _ ?_,
    fun hopen hfits hfull => congrArg _ ?_⟩
  · exact acquireScanTurn_of_lowestFree (s := (now s).2) hone hopen hheader hfits hfree
  · exact (acquireScanTurn_of_over (s := (now s).2) hone hover).trans (failAcquire_eq _)
  · exact acquireScanTurn_of_tooLong (s := (now s).2) hone hopen hheader hlong
  · exact acquireScanTurn_of_full (s := (now s).2) hone hopen hheader hfits hfull

/-! ### A step while the scan runs (log 1) -/

theorem step_of_acquireScan {s : State} {t0 : Time} {k : Nat} (hrunning : s.running = .acquireScan t0 k) :
    step s = .next (acquireScanTurn t0 k s) := by
  simp [step, resume, hrunning]

theorem step_of_acquireProbe {s : State} {t0 : Time} {k i : Nat} (hrunning : s.running = .acquireProbe t0 k i) :
    step s = .next (acquireProbeTurn t0 k i s) := by
  simp [step, resume, hrunning]

/-- Settles O45: the step is the scan's turn, whose probe takes a slot or meets one of the two failures of `ENQ`. -/
theorem acquireScanProbesTheCandidate : Obligations.AcquireScanProbesTheCandidate := by
  intro s t0 k h hrunning hk hopen hheader
  rw [step_of_acquireScan hrunning]
  exact ⟨fun _ hfits hfree => congrArg _ (acquireScanTurn_of_lowestFree hk hopen hheader hfits hfree),
    fun hlong => congrArg _ (acquireScanTurn_of_tooLong hk hopen hheader hlong),
    fun hfits hfull => congrArg _ (acquireScanTurn_of_full hk hopen hheader hfits hfull)⟩

/-! ### A turn of the inner loop (R270, R272) -/

theorem acquireProbeTurn_of_free {s : State} {i : Nat} (t0 : Time) (k : Nat) (hfree : (slotAt s i).state = .free) :
    acquireProbeTurn t0 k i s = acquireNext t0 k s :=
  if_pos hfree

section
variable {s : State} {t0 : Time} {i : Nat} (k : Nat) (hpending : (slotAt s i).state ≠ .free)
include hpending

theorem acquireProbeTurn_of_over (hover : 5000000 ≤ ((now s).1 - t0).toNat) :
    acquireProbeTurn t0 k i s = acquireNext t0 k (now s).2 :=
  (if_neg hpending).trans (if_pos (scanOver_of_le hover))

theorem acquireProbeTurn_of_pending (hopen : ((now s).1 - t0).toNat < 5000000) :
    acquireProbeTurn t0 k i s = tick { (now s).2 with running := .acquireProbe t0 k i } :=
  (if_neg hpending).trans (if_neg (not_scanOver_of_lt hopen))

end

/-- Settles O44: the turns of the inner loop, each end of it followed by the id test, and the two ends of the scan that come
before a probe. -/
theorem acquireIdTurns : Obligations.AcquireIdTurns := by
  intro s t0 k i
  refine ⟨fun hrunning hfree hid => ?_, fun hrunning hfree hid => ?_, fun hrunning hpending hopen => ?_,
    fun hrunning hpending hover hid => ?_, fun hrunning hpending hover hid => ?_, fun hrunning hk => ?_,
    fun hrunning hk hover => ?_⟩
  · rw [step_of_acquireProbe hrunning, acquireProbeTurn_of_free t0 k hfree, acquireNext_of_assigned t0 k hid, endAcquire_eq]
  · rw [step_of_acquireProbe hrunning, acquireProbeTurn_of_free t0 k hfree, acquireNext_of_unassigned t0 k hid]
  · have hstays : { (now s).2 with running := .acquireProbe t0 k i } = (now s).2 := by rw [← hrunning]; rfl
    rw [step_of_acquireProbe hrunning, acquireProbeTurn_of_pending k hpending hopen, hstays]
  · rw [step_of_acquireProbe hrunning, acquireProbeTurn_of_over k hpending hover,
      acquireNext_of_assigned (s := (now s).2) t0 k hid, endAcquire_eq]
  · rw [step_of_acquireProbe hrunning, acquireProbeTurn_of_over k hpending hover,
      acquireNext_of_unassigned (s := (now s).2) t0 k hid]
  · rw [step_of_acquireScan hrunning, acquireScanTurn_of_exhausted t0 s hk, failAcquire_eq]
  · rw [step_of_acquireScan hrunning, acquireScanTurn_of_over hk hover, failAcquire_eq]

end Sys2Proof.Machine
end

section
/-! Between commands and inside one (60_exceptions.md R287, R288; 00_scope.md R11; 20_memory.md R77): what a turn does to the
command stream, and everything that is refused, first by an instruction and then by a step. -/

namespace Sys2Proof

/-! ### Command packets that do not decode (30_encoding.md R111, R121, R124) -/

section
variable {args : List Byte} {why : DecodeError}

theorem length_ne_of_operandsNone_error {j : Instr} (h : operandsNone j args = .error why) : args.length ≠ 0 := by
  intro hlen
  obtain rfl := List.length_eq_zero_iff.1 hlen
  cases h

theorem length_ne_of_operandsByte_error {f : Byte → Instr} (h : operandsByte f args = .error why) : args.length ≠ 1 := by
  intro hlen
  obtain ⟨a, rfl⟩ := List.length_eq_one_iff.1 hlen
  cases h

theorem length_ne_of_operandsTwoBytes_error {f : Byte → Byte → Instr} (h : operandsTwoBytes f args = .error why) :
    args.length ≠ 2 := by
  intro hlen
  obtain ⟨a, b, rfl⟩ := List.length_eq_two.1 hlen
  cases h

theorem length_ne_of_operandsFourBytes_error {f : Byte → Byte → Byte → Byte → Instr}
    (h : operandsFourBytes f args = .error why) : args.length ≠ 4 := by
  intro hlen
  match args, hlen with
  | [a, b, c, d], _ => cases h

/-- An `ENQUEUE` with its twelve operand bytes and as much payload as `len` says decodes (R114). -/
theorem length_ne_of_operandsEnqueue_error (h : operandsEnqueue args = .error why) :
    (args[11]?).map (fun len => 13 + len.toNat) ≠ some (args.length + 1) := by
  unfold operandsEnqueue at h
  split at h
  · split at h
    next => cases h
    next hlen =>
      simp only [List.getElem?_cons_succ, List.getElem?_cons_zero, Option.map_some, List.length_cons, ne_eq,
        Option.some.injEq]
      omega
  · next hshort =>
    intro hlen
    match args, hlen, hshort with
    | dst :: r0 :: r1 :: r2 :: r3 :: t0 :: t1 :: t2 :: t3 :: hsel :: header :: len :: payload, _, hshort =>
      exact hshort _ _ _ _ _ _ _ _ _ _ _ _ _ rfl

/-- A `REPLY` with its `len` and as much payload as it says decodes (R115). -/
theorem length_ne_of_operandsReply_error (h : operandsReply args = .error why) :
    (args[0]?).map (fun len => 2 + len.toNat) ≠ some (args.length + 1) := by
  cases args with
  | nil => simp
  | cons len payload =>
    have hlen : payload.length ≠ len.toNat := fun heq => by simp [operandsReply, heq] at h
    simp only [List.getElem?_cons_zero, Option.map_some, List.length_cons, ne_eq, Option.some.injEq]
    omega

end

/-- A command packet that does not decode has not the length that its opcode and `len` fix, or no opcode fixes one (R121). One
case per opcode, in the order of the table. -/
theorem commandLength_ne_of_decodeCommand_error {bytes : List Byte} {why : DecodeError} (h : decodeCommand bytes = .error why) :
    commandLength bytes ≠ some bytes.length := by
  cases bytes with
  | nil => exact fun hlen => nomatch hlen
  | cons op args =>
    simp only [decodeCommand] at h
    simp only [commandLength, List.length_cons]
    generalize op.toNat = n at h ⊢
    split at h
    · simpa using length_ne_of_operandsNone_error h
    · simpa using length_ne_of_operandsNone_error h
    · simpa using length_ne_of_operandsNone_error h
    · simpa using length_ne_of_operandsFourBytes_error h
    · exact length_ne_of_operandsEnqueue_error h
    · exact length_ne_of_operandsReply_error h
    · simpa using length_ne_of_operandsByte_error h
    · simpa using length_ne_of_operandsNone_error h
    · simpa using length_ne_of_operandsNone_error h
    · simpa using length_ne_of_operandsByte_error h
    · simpa using length_ne_of_operandsFourBytes_error h
    · simpa using length_ne_of_operandsByte_error h
    · simpa using length_ne_of_operandsByte_error h
    · simpa using length_ne_of_operandsByte_error h
    · simpa using length_ne_of_operandsByte_error h
    · simpa using length_ne_of_operandsByte_error h
    · simpa using length_ne_of_operandsByte_error h
    · simpa using length_ne_of_operandsTwoBytes_error h
    · simp [*]

end Sys2Proof

namespace Sys2Proof.Machine

/-! ### A turn leaves the command stream alone (20_memory.md R77, log 1) -/

@[simp] theorem enq_inbox (dst : Byte) (rbus : BusId) (timing : Word) (explicit : Option Byte) (payload : List Byte)
    (s : State) : (enq dst rbus timing explicit payload s).2.inbox = s.inbox :=
  (congrArg State.inbox (enq_own dst rbus timing explicit payload s) :)

@[simp] theorem tick_inbox (s : State) : (tick s).inbox = s.inbox := (congrArg State.inbox (tick_queueWrite s) :)

@[simp] theorem receive1_inbox (s : State) : (receive1 s).2.inbox = s.inbox := (congrArg State.inbox (receive1_rxWrite s) :)

@[simp] theorem endReceiveFor_inbox (o : Outcome) (s : State) : (endReceiveFor o s).inbox = s.inbox := rfl

@[simp] theorem failAcquire_inbox (s : State) : (failAcquire s).inbox = s.inbox := rfl

theorem receiveForTurn_inbox (t0 : Time) (duration : Word) (s : State) : (receiveForTurn t0 duration s).inbox = s.inbox := by
  rcases receiveForTurn_cases t0 duration s with ⟨_, h⟩ | ⟨_, h⟩ | ⟨_, h⟩ <;> simp [h]

theorem acquireScanTurn_inbox (t0 : Time) (k : Nat) (s : State) : (acquireScanTurn t0 k s).inbox = s.inbox := by
  rcases acquireScanTurn_cases t0 k s with ⟨_, h⟩ | ⟨_, h⟩ | ⟨_, _, h⟩ | ⟨i, _, _, h⟩ <;> simp [h, enqProbe]

@[simp] theorem acquireNext_inbox (t0 : Time) (k : Nat) (s : State) : (acquireNext t0 k s).inbox = s.inbox := by
  rcases acquireNext_cases t0 k s with h | h <;> rw [h]; rfl

theorem acquireProbeTurn_inbox (t0 : Time) (k slot : Nat) (s : State) : (acquireProbeTurn t0 k slot s).inbox = s.inbox := by
  rcases acquireProbeTurn_cases t0 k slot s with h | h | h <;> simp [h]

theorem resume_inbox (s : State) : (resume s).inbox = s.inbox := by
  unfold resume
  split
  · rfl
  · exact receiveForTurn_inbox ..
  · exact acquireScanTurn_inbox ..
  · exact acquireProbeTurn_inbox ..

/-- Settles O9, by the cases of a step: between commands with nothing issued it keeps the state, and with a command running it
is the next turn. -/
theorem noCommandTakenWhileOneRuns : Obligations.NoCommandTakenWhileOneRuns := by
  refine ⟨fun s hidle hinbox => ?_, fun s hrun => ?_⟩
  · rcases step_cases s with ⟨hrun, _⟩ | ⟨_, _, he⟩ | ⟨_, _, _, _, hcons, _⟩ | ⟨_, _, _, _, hcons, _⟩
    · exact absurd hidle hrun
    · exact he
    · exact nomatch hinbox.symm.trans hcons
    · exact nomatch hinbox.symm.trans hcons
  · rcases step_cases s with ⟨_, he⟩ | ⟨hidle, _⟩ | ⟨_, _, _, hidle, _⟩ | ⟨_, _, _, hidle, _⟩
    · exact ⟨resume s, he, rfl, resume_inbox s⟩
    · exact absurd hidle hrun
    · exact absurd hidle hrun
    · exact absurd hidle hrun

/-! ### The refusals of the shared operand forms (30_encoding.md R94, R122) -/

theorem setFlag_refused {v : Byte} {write : Bool → State} {r : Refusal} (h : setFlag v write = .refused r) :
    isBoolOperand v = false ∧ r = .reservedOperand := by
  rcases setFlag_cases v write with ⟨_, he⟩ | ⟨_, he⟩ | ⟨h0, h1, he⟩ <;> rw [he] at h <;> cases h
  exact ⟨by rw [isBoolOperand, decide_eq_false h0, decide_eq_false h1]; rfl, rfl⟩

theorem execSetMode_refused {m : Byte} {s : State} {r : Refusal} (h : execSetMode m s = .refused r) :
    (m ≠ Config.simplexCode ∧ m ≠ Config.halfDuplexCode) ∧ r = .reservedOperand := by
  have hs : m ≠ Config.simplexCode := by rintro rfl; cases h
  have hd : m ≠ Config.halfDuplexCode := by rintro rfl; cases h
  rw [execSetMode_reserved hs hd] at h
  cases h
  exact ⟨⟨hs, hd⟩, rfl⟩

/-- An enqueue refuses a reserved selector, and with the selector 1 a header with reserved bits (R114, R122). -/
theorem enqueueOperands_refused {dst : Byte} {rbus : BusId} {timing : Word} {hsel header : Byte} {payload : List Byte}
    {s : State} {r : Refusal} (h : enqueueOperands dst rbus timing hsel header payload s = .refused r) :
    (hsel ≠ 0 ∧ (hsel = 1 → reservedBitsClear header = false)) ∧ (r = .reservedOperand ∨ r = .reservedHeaderBits) := by
  rcases enqueueOperands_cases dst rbus timing hsel header payload s with
    ⟨_, _, _, he⟩ | ⟨h1, hres, he⟩ | ⟨h0, h1, he⟩ <;> rw [he] at h <;> cases h
  · exact ⟨⟨by rw [h1]; decide, fun _ => hres⟩, .inr rfl⟩
  · exact ⟨⟨h0, fun heq => absurd heq h1⟩, .inl rfl⟩

theorem execReply_refused {payload : List Byte} {s : State} {r : Refusal} (h : execReply payload s = .refused r) :
    s.lpiValid = false ∧ r = .replyBeforeAccept := by
  unfold execReply at h
  split at h
  · split at h <;> cases h
  · next hvalid =>
    cases h
    exact ⟨Bool.eq_false_iff.2 hvalid, rfl⟩

theorem execRemove_refused {slot : Byte} {s : State} {r : Refusal} (h : execRemove slot s = .refused r) :
    s.queue.length ≤ slot.toNat ∧ r = .reservedOperand := by
  unfold execRemove at h
  split at h
  · cases h
  · next hout =>
    cases h
    exact ⟨Nat.not_lt.1 hout, rfl⟩

theorem execRespSlot_refused {slot : Byte} {s : State} {r : Refusal} (h : execRespSlot slot s = .refused r) :
    s.queue.length ≤ slot.toNat ∧ r = .reservedOperand := by
  unfold execRespSlot at h
  split at h
  · cases h
  · next hout =>
    cases h
    exact ⟨Nat.not_lt.1 hout, rfl⟩

/-- Every code from 101 to 105 is one of an error kind (R104). -/
theorem errorOfCode_ne_none {code : Byte} (hlow : 101 ≤ code.toNat) (hhigh : code.toNat ≤ 105) : errorOfCode code ≠ none := by
  unfold errorOfCode
  generalize code.toNat = n at hlow hhigh ⊢
  interval_cases n <;> simp

theorem execErrevt_refused {code : Byte} {data : Half} {s : State} {r : Refusal} (h : execErrevt code data s = .refused r) :
    (101 ≤ code.toNat → 105 < code.toNat) ∧ r = .reservedOperand := by
  unfold execErrevt at h
  split at h
  · cases h
  · next hnone =>
    cases h
    exact ⟨fun hlow => Nat.not_le.1 fun hhigh => errorOfCode_ne_none hlow hhigh hnone, rfl⟩

/-- A frame is refused only when it is to be sent with reserved header bits set (R94). -/
theorem wireFrame_refused {dir : Direction} {dst h : Byte} {content : List Byte} {crc : Byte} {s : State} {r : Refusal}
    (hf : wireFrame dir dst h content crc s = .refused r) :
    frameFits dir dst h content crc = false ∧ r = .reservedHeaderBits := by
  rcases wireFrame_cases dir dst h content crc s with ⟨_, _, he⟩ | ⟨rfl, hres, he⟩ | ⟨_, he⟩ <;> rw [he] at hf <;> cases hf
  exact ⟨by simp [frameFits, hres], rfl⟩

/-! ### The refusals of an instruction (60_exceptions.md R287) -/

/-- The refusal of an instruction with a reserved operand or with reserved header bits (30_encoding.md R122). -/
def RefusesOperands (i : Instr) (maxPackets : Nat) (r : Refusal) : Prop :=
  i.wellFormed maxPackets = false ∧ (r = .reservedOperand ∨ r = .reservedHeaderBits)

/-- The refusal of a `REPLY` before any frame was accepted (44_controller.md R251). -/
def RefusesReply (i : Instr) (s : State) (r : Refusal) : Prop :=
  ∃ payload, i = .reply payload ∧ s.lpiValid = false ∧ r = .replyBeforeAccept

/-- Everything an instruction refuses, each row by the operand form it checks. -/
theorem exec_refused {i : Instr} {s : State} {r : Refusal} (h : exec i s = .refused r) :
    RefusesOperands i s.queue.length r ∨ RefusesReply i s r := by
  cases i with
  | reply payload =>
    obtain ⟨hvalid, hr⟩ := execReply_refused h
    exact .inr ⟨payload, rfl, hvalid, hr⟩
  | setShared | setRouter | setSenderInfo | setAck | setAutoDelete =>
    obtain ⟨hv, hr⟩ := setFlag_refused h
    exact .inl ⟨hv, .inl hr⟩
  | setMode m =>
    obtain ⟨⟨hs, hd⟩, hr⟩ := execSetMode_refused h
    exact .inl ⟨by simp [Instr.wellFormed, hs, hd], .inl hr⟩
  | enqueue =>
    obtain ⟨⟨h0, h1⟩, hr⟩ := enqueueOperands_refused h
    exact .inl ⟨by simpa [Instr.wellFormed] using fun _ => ⟨h0, h1⟩, hr⟩
  | sendH | sendRepeatedlyH =>
    obtain ⟨⟨_, h1⟩, hr⟩ := enqueueOperands_refused h
    exact .inl ⟨by simp [Instr.wellFormed, h1], hr⟩
  | remove slot =>
    obtain ⟨hout, hr⟩ := execRemove_refused h
    exact .inl ⟨by simpa [Instr.wellFormed] using hout, .inl hr⟩
  | respSlot slot =>
    obtain ⟨hout, hr⟩ := execRespSlot_refused h
    exact .inl ⟨by simpa [Instr.wellFormed] using hout, .inl hr⟩
  | errevt code data =>
    obtain ⟨hcode, hr⟩ := execErrevt_refused h
    exact .inl ⟨by simpa [Instr.wellFormed] using hcode, .inl hr⟩
  | frameLocal | frameShared | frameLocalSender | frameSharedSender =>
    obtain ⟨hfits, hr⟩ := wireFrame_refused h
    exact .inl ⟨hfits, .inr hr⟩
  | beginOp | update | receive | receiveFor | acquireId | getId | setId | setBusId | setPins | send | sendRepeatedly | tick | ack
  | nak | respVoid | respEnqFail | respOutcome | respNoop | respId | rxevt => cases h

/-- Settles O57: there is no fault to answer, and every refusal is one of a row that is not well-formed or of a `REPLY` with
nothing accepted. -/
theorem wellFormedInstructionsRun : Obligations.WellFormedInstructionsRun := by
  refine ⟨fun s i hwf hreply => ?_, fun _ f => nomatch f⟩
  cases h : exec i s with
  | next t => exact ⟨t, rfl⟩
  | fault f => exact nomatch f
  | refused r =>
    rcases exec_refused h with ⟨hnot, _⟩ | ⟨payload, hi, hvalid, _⟩
    · exact nomatch hwf.symm.trans hnot
    · exact nomatch (hreply payload hi).symm.trans hvalid

/-- Settles O58, by the cases of a step: it refuses a packet that does not decode, which has a wrong length, or it runs an
instruction that refuses. -/
theorem onlyTheListedSituationsAreRefused : Obligations.OnlyTheListedSituationsAreRefused := by
  intro s r h
  rcases step_cases s with ⟨_, he⟩ | ⟨_, _, he⟩ | ⟨bytes, rest, i, hidle, hinbox, hdec, he⟩ |
    ⟨bytes, rest, why, hidle, hinbox, hdec, he⟩ <;> rw [he] at h
  · cases h
  · cases h
  · refine ⟨hidle, bytes, rest, hinbox, .inr ?_⟩
    rcases exec_refused h with ⟨hnot, hr⟩ | ⟨payload, rfl, hvalid, hr⟩
    · exact .inl ⟨i, hdec, hnot, hr⟩
    · exact .inr ⟨payload, hdec, hvalid, hr⟩
  · cases h
    exact ⟨hidle, bytes, rest, hinbox, .inl ⟨why, hdec, commandLength_ne_of_decodeCommand_error hdec, rfl⟩⟩

end Sys2Proof.Machine
end

section
/-! Reset (70_reset_and_hazards.md R310): the two values that are computed from the parameters, the slots and the flag `SHARED`. -/

namespace Sys2Proof.Machine

section
variable (p : Config.Params)

@[simp] theorem queue_length_resetWith : (State.resetWith p).queue.length = p.maxPackets := List.length_replicate

/-- No bound on `i` is needed: outside the queue `slotAt` reads the free slot as well. -/
@[simp] theorem slotAt_resetWith (i : Nat) : slotAt (State.resetWith p) i = Slot.empty := by
  by_cases hi : i < (State.resetWith p).queue.length
  · exact List.eq_of_mem_replicate (slotAt_mem hi)
  · exact List.getD_eq_default _ _ (not_lt.mp hi)

theorem shared_resetWith : (State.resetWith p).shared = true ↔ p.initBusId ≠ BusId.zero := decide_eq_true_iff

end

/-- Settles O51: the slots and `SHARED` by their lemmas, everything else as `RESET` writes it. -/
theorem resetState : Obligations.ResetState := fun p =>
  have hslots : ∀ i, i < p.maxPackets → slotAt (State.resetWith p) i = Slot.empty := fun i _ => slotAt_resetWith p i
  ⟨rfl, rfl, rfl, rfl, rfl, shared_resetWith p, rfl, rfl, queue_length_resetWith p, hslots, rfl, rfl, rfl, rfl⟩

end Sys2Proof.Machine
end
